-- ==== Sys2Proof/Word.lean ====
section
/-! DEFINITION. The widths of HUFFCORE's values (rules R9, R32, R41, R91, R93). All integers are unsigned. -/

namespace Sys2Proof

/-- A byte of the source or the sink stream (R60). -/
abbrev Byte := BitVec 8

/-- A symbol: a byte value 0..255 (R9, SYMW = 8). -/
abbrev Sym := BitVec 8

/-- A count, or a fixed-width integer on a stream (R9, CNTW = 64). -/
abbrev Count := BitVec 64

/-- An index into the node arena, or NIL (R9, IDXW = 9). -/
abbrev NodeIdx := BitVec 9

/-- A command word (R91, CWW = 80). -/
abbrev CmdWord := BitVec 80

/-- A response word (R93, RSW = 72). -/
abbrev RspWord := BitVec 72

end Sys2Proof
end

