-- ==== Sys2Proof/Syntax.lean ====
section
/-! DEFINITION. The 18 commands of HUFFCORE (rules R92, R95), and their written forms with the pseudo-commands
(rules R100, R101). -/

namespace Sys2Proof

/-- One constructor per row of R95. The operands are the fields of the command word that the row's format uses (R92),
as the pseudocode of the command rules names them: `a` is A (71:64), `d` is D (63:0). -/
inductive Instr where
  | nop
  | reset
  | rdstat
  | rdbit
  | rdbyte
  | rdword
  | wrbit (a : BitVec 8)
  | wrbyte (d : BitVec 64)
  | wrword (d : BitVec 64)
  | flush
  | count (a : Sym)
  | setfreq (a : Sym) (d : Count)
  | getfreq (a : Sym)
  | build
  | getnleaf
  | gettotal
  | encode (a : Sym)
  | decode
  deriving DecidableEq, Repr

/-- The written form of a command (R100), with its operands as the numbers that are written, and the three
pseudo-commands of R101. The lexing of a line of text is left out (log 20). -/
inductive Written where
  | nop
  | reset
  | rdstat
  | rdbit
  | rdbyte
  | rdword
  | wrbit (bit : Nat)
  | wrbyte (b : Nat)
  | wrword (n : Nat)
  | flush
  | count (sym : Nat)
  | setfreq (sym : Nat) (n : Nat)
  | getfreq (sym : Nat)
  | build
  | getnleaf
  | gettotal
  | encode (sym : Nat)
  | decode
  | wrbits (bits : List Bool)
  | rdbits (k : Nat)
  | hostRewind
  deriving DecidableEq, Repr

end Sys2Proof
end

