-- ==== Sys2Proof/WellFormed.lean ====
section
/-! DEFINITION. Which instructions and written forms are well-formed (rules R92, R96, R97, R100). -/

namespace Sys2Proof

/-- The must-be-zero bits of the operand fields an instruction carries are zero (R92). Only format B has any: in
`WRBIT`, A[7:1] must be 0. Every value of a symbol, count, word or byte operand is legal (R96). -/
def Instr.wellFormed : Instr → Bool
  | .nop => true
  | .reset => true
  | .rdstat => true
  | .rdbit => true
  | .rdbyte => true
  | .rdword => true
  | .wrbit a => a.extractLsb' 1 7 == 0#7
  | .wrbyte _ => true
  | .wrword _ => true
  | .flush => true
  | .count _ => true
  | .setfreq _ _ => true
  | .getfreq _ => true
  | .build => true
  | .getnleaf => true
  | .gettotal => true
  | .encode _ => true
  | .decode => true

/-- The operands of a written form fit the fields R92 gives them: a bit is 0 or 1, a symbol is 0..255, a count or word
is below 2^64, and the assembler "rejects b > 255" in `WRBYTE b` (R100). -/
def Written.wellFormed : Written → Bool
  | .nop => true
  | .reset => true
  | .rdstat => true
  | .rdbit => true
  | .rdbyte => true
  | .rdword => true
  | .wrbit bit => bit < 2
  | .wrbyte b => b < 256
  | .wrword n => n < 2 ^ 64
  | .flush => true
  | .count sym => sym < 256
  | .setfreq sym n => sym < 256 && n < 2 ^ 64
  | .getfreq sym => sym < 256
  | .build => true
  | .getnleaf => true
  | .gettotal => true
  | .encode sym => sym < 256
  | .decode => true
  | .wrbits _ => true
  | .rdbits _ => true
  | .hostRewind => true

end Sys2Proof
end

