-- ==== Sys2Proof/Decode.lean ====
section
/-! DEFINITION. The command word (rules R91, R92), the opcode map (R95), the decoder, total on all 2^80 words
(R97, R98 step 1), and after it the encoder. -/

namespace Sys2Proof

/-- OP = CW[79:72] (R91). -/
def opField (cw : CmdWord) : BitVec 8 := cw.extractLsb' 72 8

/-- A = CW[71:64] (R91). -/
def aField (cw : CmdWord) : BitVec 8 := cw.extractLsb' 64 8

/-- D = CW[63:0] (R91). -/
def dField (cw : CmdWord) : BitVec 64 := cw.extractLsb' 0 64

/-- The command word with the fields OP, A, D (R91). -/
def cmdWord (op a : BitVec 8) (d : BitVec 64) : CmdWord := op ++ a ++ d

/-- The five formats (R92). -/
inductive Format where
  | z
  | b
  | s
  | w
  | sw
  deriving DecidableEq, Repr

/-- The bits that must be zero in a format (R92), as a mask over the command word. -/
def mustBeZero : Format → CmdWord
  | .z  => 0x00FFFFFFFFFFFFFFFFFF#80
  | .b  => 0x00FEFFFFFFFFFFFFFFFF#80
  | .s  => 0x0000FFFFFFFFFFFFFFFF#80
  | .w  => 0x00FF0000000000000000#80
  | .sw => 0x00000000000000000000#80

/-- A row of the opcode map (R95): opcode, mnemonic, format, and the instruction its A and D fields give. -/
structure OpRow where
  op : BitVec 8
  mnemonic : String
  format : Format
  build : BitVec 8 → BitVec 64 → Instr

/-- The opcode map (R95). -/
def opRows : List OpRow :=
  [ ⟨0x00#8, "NOP",      .z,  fun _ _ => .nop⟩,
    ⟨0x01#8, "RESET",    .z,  fun _ _ => .reset⟩,
    ⟨0x02#8, "RDSTAT",   .z,  fun _ _ => .rdstat⟩,
    ⟨0x10#8, "RDBIT",    .z,  fun _ _ => .rdbit⟩,
    ⟨0x11#8, "RDBYTE",   .z,  fun _ _ => .rdbyte⟩,
    ⟨0x12#8, "RDWORD",   .z,  fun _ _ => .rdword⟩,
    ⟨0x20#8, "WRBIT",    .b,  fun a _ => .wrbit a⟩,
    ⟨0x21#8, "WRBYTE",   .w,  fun _ d => .wrbyte d⟩,
    ⟨0x22#8, "WRWORD",   .w,  fun _ d => .wrword d⟩,
    ⟨0x23#8, "FLUSH",    .z,  fun _ _ => .flush⟩,
    ⟨0x30#8, "COUNT",    .s,  fun a _ => .count a⟩,
    ⟨0x31#8, "SETFREQ",  .sw, fun a d => .setfreq a d⟩,
    ⟨0x32#8, "GETFREQ",  .s,  fun a _ => .getfreq a⟩,
    ⟨0x40#8, "BUILD",    .z,  fun _ _ => .build⟩,
    ⟨0x41#8, "GETNLEAF", .z,  fun _ _ => .getnleaf⟩,
    ⟨0x42#8, "GETTOTAL", .z,  fun _ _ => .gettotal⟩,
    ⟨0x50#8, "ENCODE",   .s,  fun a _ => .encode a⟩,
    ⟨0x51#8, "DECODE",   .z,  fun _ _ => .decode⟩ ]

/-- Why a command word is illegal (R97). -/
inductive DecodeError where
  /-- OP is none of the 18 values of R95: "reserved; none is a hint, none is a custom space". -/
  | undefinedOpcode
  /-- OP is one of them and a must-be-zero bit of its format is 1. -/
  | mustBeZeroBitSet
  deriving DecidableEq, Repr

/-- The row of R95 with an opcode, if any. -/
def findRow (op : BitVec 8) : Option OpRow := opRows.find? (fun r => r.op == op)

/-- The decoder (R97, R98 step 1). -/
def decode (cw : CmdWord) : Except DecodeError Instr :=
  match findRow (opField cw) with
  | none => .error .undefinedOpcode
  | some r =>
    if cw &&& mustBeZero r.format = 0#80 then .ok (r.build (aField cw) (dField cw))
    else .error .mustBeZeroBitSet

/-- The command word of an instruction: its opcode (R95), its operands in the fields of its format (R92), the rest
zero. -/
def encode : Instr → CmdWord
  | .nop         => cmdWord 0x00#8 0#8 0#64
  | .reset       => cmdWord 0x01#8 0#8 0#64
  | .rdstat      => cmdWord 0x02#8 0#8 0#64
  | .rdbit       => cmdWord 0x10#8 0#8 0#64
  | .rdbyte      => cmdWord 0x11#8 0#8 0#64
  | .rdword      => cmdWord 0x12#8 0#8 0#64
  | .wrbit a     => cmdWord 0x20#8 a 0#64
  | .wrbyte d    => cmdWord 0x21#8 0#8 d
  | .wrword d    => cmdWord 0x22#8 0#8 d
  | .flush       => cmdWord 0x23#8 0#8 0#64
  | .count a     => cmdWord 0x30#8 a 0#64
  | .setfreq a d => cmdWord 0x31#8 a d
  | .getfreq a   => cmdWord 0x32#8 a 0#64
  | .build       => cmdWord 0x40#8 0#8 0#64
  | .getnleaf    => cmdWord 0x41#8 0#8 0#64
  | .gettotal    => cmdWord 0x42#8 0#8 0#64
  | .encode a    => cmdWord 0x50#8 a 0#64
  | .decode      => cmdWord 0x51#8 0#8 0#64

/-- The command word whose low `nbits` bits are those of `w` and whose other bits are 0. The table numbers the bits of
the one 80-bit word, OP at 79:72 (log 21). -/
def tableWord (nbits w : Nat) : CmdWord := BitVec.ofNat 80 (w % 2 ^ nbits)

/-- The instruction the decoder reads from a row's bits, numbered as spec/opcode_table.json numbers them. -/
def decodeTableWord (nbits w : Nat) : Option Instr :=
  match decode (tableWord nbits w) with
  | .ok i => some i
  | .error _ => none

end Sys2Proof
end

