-- ==== Sys2Proof/Config.lean ====
section
/-! DEFINITION. The parameters of HUFFCORE (rule R9): the fixed ones as constants, the OPEN one as the record `Config`.
NSYM = 256 and NNODE_MAX = 511 stand as literals in the array types of Machine/State.lean. -/

namespace Sys2Proof

/-- The parameters that R9 leaves OPEN. A `Config` is chosen with the machine and no step changes it (R69: "cannot be
changed by a command"). DESIGN CHOICE (log 4): it rides in `State`, because the step function takes a state alone. -/
structure Config where
  /-- WORD_BIG_ENDIAN (R9, R69): byte order of a fixed-width integer on the streams. -/
  wordBigEndian : Bool
  deriving DecidableEq, Repr

/-- The default of R9: `WORD_BIG_ENDIAN = false`. -/
def Config.default : Config := { wordBigEndian := false }

/-- NIL (R9): the node index that means "no node". -/
abbrev nilIdx : NodeIdx := 511#9

/-- MAXDEPTH (R9): greatest code length in bits, and the depth of the encoder's bit stack. -/
abbrev maxDepth : Nat := 255

/-- W (R9): bytes in a fixed-width integer field. -/
abbrev wordBytes : Nat := 8

end Sys2Proof
end

