-- ==== Sys2Proof/Machine/State.lean ====
section
/-! DEFINITION. The state of a running system (rules R20 to R46), its reset values (R43), the reasons a step can stop. -/

namespace Sys2Proof.Machine

/-- The kind of an arena node (R32): 0 = LEAF, 1 = INTERNAL. -/
inductive Kind where
  | leaf
  | internal
  deriving DecidableEq, Repr

/-- An entry of the node arena (R32). -/
structure Node where
  kind : Kind
  sym : Sym
  count : Count
  c0 : NodeIdx
  c1 : NodeIdx
  par : NodeIdx
  deriving DecidableEq, Repr

/-- The entry whose bits are all zero. DESIGN CHOICE (log 5): what NODE holds in `State.reset`, for which the spec gives
no value (R46). -/
def Node.zero : Node := { kind := .leaf, sym := 0#8, count := 0#64, c0 := 0#9, c1 := 0#9, par := 0#9 }

/-- Block state (R20 (a)): changed only by commands and by reset. -/
structure Block where
  /-- FAULT (R24). -/
  fault : Bool
  /-- TVALID (R25). -/
  tvalid : Bool
  /-- CAUSE (R26). -/
  cause : BitVec 8
  /-- RBUF (R27). -/
  rbuf : BitVec 8
  /-- RCNT (R28), legal 0..8. -/
  rcnt : BitVec 4
  /-- WBUF (R29). -/
  wbuf : BitVec 8
  /-- WCNT (R30). -/
  wcnt : BitVec 3
  /-- FREQ (R31), indexed by symbol. -/
  freq : Vector Count 256
  /-- NODE (R32), indexed by node index; index 511 is NIL and names no entry. -/
  node : Vector Node 511
  /-- NNODE (R34). -/
  nnode : NodeIdx
  /-- NLEAF (R35). -/
  nleaf : BitVec 9
  /-- ROOT (R36). -/
  root : NodeIdx
  /-- LEAF (R37), indexed by symbol. -/
  leaf : Vector NodeIdx 256
  deriving DecidableEq, Repr

/-- Transient block state (R20 (b)): initialised by every command that uses it, read by no command before that
(log 6). -/
structure Transient where
  /-- PQ (R38): a set of node indices; the order of the list is not architectural (R180). -/
  pq : List NodeIdx
  /-- CSTK (R39). -/
  cstk : Vector Bool 255
  /-- CLEN (R39). -/
  clen : BitVec 8
  /-- CUR (R40). -/
  cur : NodeIdx
  /-- DLEN (R40). -/
  dlen : BitVec 8
  deriving DecidableEq, Repr

/-- Environment state (R20 (c), R41): owned by the host. -/
structure Env where
  /-- SRC. -/
  src : List Byte
  /-- SPOS, 0 ≤ SPOS ≤ |SRC|. -/
  spos : Nat
  /-- SNK, oldest first. -/
  snk : List Byte
  /-- SNKFL. -/
  snkfl : Nat
  deriving DecidableEq, Repr

/-- A response word by its fields (R93): ST = RS[71:64], RD = RS[63:0]. -/
structure Response where
  st : BitVec 8
  rd : BitVec 64
  deriving DecidableEq, Repr

/-- What the world outside the block can do to it (R7, R66, R67, R90, R270). -/
inductive HostInput where
  /-- Present a command word on the command port (R91). -/
  | command (cw : CmdWord)
  /-- Rewind the source (R66 (a)). -/
  | rewind
  /-- Replace the source (R66 (b)). -/
  | replaceSource (bytes : List Byte)
  /-- Replace the sink (R67). -/
  | replaceSink
  /-- Hold rst_n low between two commands (R270). -/
  | pinReset
  /-- Hold rst_n low while a command is in flight (R270). `made` says how many of the command's environment effects
  had been made; which ones is open (U25 of spec/93), so it is an argument and takes any value (log 13). -/
  | pinResetDuring (cw : CmdWord) (made : Nat)
  deriving DecidableEq, Repr

/-- The command and response ports (R90, R102) at transaction level. The model's own fields (log 1, log 3). -/
structure Port where
  /-- What the host has presented and the block has not taken, oldest first. -/
  inputs : List HostInput
  /-- All response words transferred so far, oldest first. -/
  rsps : List Response
  deriving DecidableEq, Repr

/-- The state of a running system (R20). `blk`, `tmp` and `env` are its three classes. `cfg`, `port` and `env.src` are no
state by R44: they carry the arguments and the output of the step function around a step that takes a state alone. The
function with these as arguments and output is `transact` (Machine/Transaction.lean). -/
structure State where
  blk : Block
  tmp : Transient
  env : Env
  cfg : Config
  port : Port
  deriving DecidableEq, Repr

/-- Why the machine stops. These are not HUFFCORE's faults: those are next states (R246). Both are stuck states that
only a state which no run reaches can meet (R176, log 9). -/
inductive Fault where
  /-- ENCODE would push a 256th bit on CSTK, which has 255 entries (R39, R190 (c)). Raised by ENCODE alone. Safe: the
  spec gives no effect there. -/
  | encodeStackFull
  /-- DECODE would read a 256th bit, and DLEN counts to 255 (R40, R193 (e)). Raised by DECODE alone. Safe: the spec
  gives no effect there. -/
  | decodeTooDeep
  deriving DecidableEq, Repr

/-- Why an instruction has no meaning. -/
inductive Refusal where
  /-- The instruction is not modelled yet. Raised by an arm of `exec`; no arm of this model raises it. Safe. -/
  | notModelled (mnemonic : String)
  deriving DecidableEq, Repr

/-- The block after reset (R43). The spec states no value for NODE: DESIGN CHOICE all zero (log 5). -/
def Block.reset : Block where
  fault := false
  tvalid := false
  cause := 0x00#8
  rbuf := 0x00#8
  rcnt := 0#4
  wbuf := 0x00#8
  wcnt := 0#3
  freq := Vector.replicate 256 0#64
  node := Vector.replicate 511 Node.zero
  nnode := 0#9
  nleaf := 0#9
  root := nilIdx
  leaf := Vector.replicate 256 nilIdx

/-- PQ is empty after reset (R43); the other transients are not observable: DESIGN CHOICE all zero (log 6). -/
def Transient.reset : Transient where
  pq := []
  cstk := Vector.replicate 255 false
  clen := 0#8
  cur := 0#9
  dlen := 0#8

/-- The environment before the host has given a source or a sink: DESIGN CHOICE empty streams (log 7). -/
def Env.initial : Env where
  src := []
  spos := 0
  snk := []
  snkfl := 0

/-- The machine right after reset (R43, R271) under the given parameters, no input pending and no response given. -/
def State.resetUnder (p : Config) : State where
  blk := Block.reset
  tmp := Transient.reset
  env := Env.initial
  cfg := p
  port := { inputs := [], rsps := [] }

/-- The machine right after reset, with WORD_BIG_ENDIAN at its default (R9). -/
def State.reset : State := State.resetUnder Config.default

end Sys2Proof.Machine
end

