-- ==== Sys2Proof/Machine/Flags.lean ====
section
/-! DEFINITION. Status codes, fault causes and the STATUS word (rules R42, R94, R241, R249). -/

namespace Sys2Proof.Machine

/-- The causes a command can raise (R241). -/
inductive Cause where
  | endOfStream
  | malformedBitstream
  | noTree
  | noLeaf
  | countOverflow
  | sequence
  | illegalCmd
  deriving DecidableEq, Repr

/-- The code of a cause (R94, R241). -/
def Cause.code : Cause → BitVec 8
  | .endOfStream => 0x10#8
  | .malformedBitstream => 0x12#8
  | .noTree => 0x20#8
  | .noLeaf => 0x21#8
  | .countOverflow => 0x22#8
  | .sequence => 0x23#8
  | .illegalCmd => 0x2F#8

/-- ST = OK (R94). -/
def stOk : BitVec 8 := 0x00#8

/-- ST = EOD (R94): end of data at a clean boundary. -/
def stEod : BitVec 8 := 0x01#8

/-- ST = FAULTED (R94): refused because FAULT = 1. -/
def stFaulted : BitVec 8 := 0x02#8

/-- The code of MALFORMED_HEADER (R94, R218), which only the host's decompress sequence reports. -/
def codeMalformedHeader : BitVec 8 := 0x11#8

/-- The response word RS (R93): ST = RS[71:64], RD = RS[63:0]. -/
def rspWord (r : Response) : RspWord := r.st ++ r.rd

/-- The STATUS word (R42): 0 in 63:24, RCNT in 23:20, 0 in 19, WCNT in 18:16, CAUSE in 15:8, 0 in 7:2, TVALID in 1,
FAULT in 0. -/
def statusWord (b : Block) : BitVec 64 :=
  0#40 ++ b.rcnt ++ 0#1 ++ b.wcnt ++ b.cause ++ 0#6 ++ BitVec.ofBool b.tvalid ++ BitVec.ofBool b.fault

/-- The output fault_o (R90, R249): equal to FAULT at all times. -/
def faultO (s : State) : Bool := s.blk.fault

end Sys2Proof.Machine
end

