-- ==== Sys2Proof/Machine/Operands.lean ====
section
/-! DEFINITION. Operands and results (rule R96), and fixed-width integers as bytes (rule R69). -/

namespace Sys2Proof.Machine

/-- The bit operand: A[0] (R96). -/
def bitOperand (a : BitVec 8) : Bool := a.getLsbD 0

/-- The byte operand of WRBYTE: D[7:0]; D[63:8] is ignored (R96, R141). -/
def byteOperand (d : BitVec 64) : Byte := d.extractLsb' 0 8

/-- A bit as a result: RD[0] (R96). -/
def rdOfBit (b : Bool) : BitVec 64 := (BitVec.ofBool b).setWidth 64

/-- A byte, a symbol or a code length as a result: RD[7:0] (R96). -/
def rdOfByte (b : BitVec 8) : BitVec 64 := b.setWidth 64

/-- NLEAF as a result: RD[8:0] (R96). -/
def rdOfNleaf (n : BitVec 9) : BitVec 64 := n.setWidth 64

/-- `WordToBytes` (R69), in stream order. -/
def wordToBytes (big : Bool) (n : BitVec 64) : List Byte :=
  let le := [n.extractLsb' 0 8, n.extractLsb' 8 8, n.extractLsb' 16 8, n.extractLsb' 24 8,
             n.extractLsb' 32 8, n.extractLsb' 40 8, n.extractLsb' 48 8, n.extractLsb' 56 8]
  if big then le.reverse else le

/-- `BytesToWord` (R69), of eight bytes in stream order. -/
def bytesToWord (big : Bool) (bytes : List Byte) : BitVec 64 :=
  let le := if big then bytes.reverse else bytes
  le.getD 7 0#8 ++ le.getD 6 0#8 ++ le.getD 5 0#8 ++ le.getD 4 0#8 ++
    le.getD 3 0#8 ++ le.getD 2 0#8 ++ le.getD 1 0#8 ++ le.getD 0 0#8

/-- `v` with bit `i` set to `b`: the pseudocode's `WBUF[i] <- b` (R140). -/
def setBit (v : BitVec 8) (i : Nat) (b : Bool) : BitVec 8 :=
  if b then v ||| (1#8 <<< i) else v &&& ~~~(1#8 <<< i)

end Sys2Proof.Machine
end

