-- ==== Sys2Proof/Machine/Ops.lean ====
section
/-! DEFINITION. The operations the commands share: responses and `raise` (R246), dispatch on FAULT (R98), reset (R270),
the streams (R62 to R65), the bit buffers (R130, R140), the table, the arena and the leaf index. -/

namespace Sys2Proof.Machine

/-! ### Ending a command -/

/-- Transfer one response word (R93, R102). -/
def pushRsp (st : BitVec 8) (rd : BitVec 64) (s : State) : State :=
  { s with port.rsps := s.port.rsps ++ [{ st := st, rd := rd }] }

/-- `return (ST, RD)` (spec/00_scope.md, Responses). -/
def respond (st : BitVec 8) (rd : BitVec 64) (s : State) : Host.Outcome State Fault Refusal :=
  .next (pushRsp st rd s)

/-- FAULT <- 1; CAUSE <- the code (R246). -/
def enterFault (c : Cause) (s : State) : State :=
  { s with blk.fault := true, blk.cause := c.code }

/-- `raise X` (R246): take the fault. Nothing else is saved, control goes nowhere, and the response is (code, 0). -/
def raise (c : Cause) (s : State) : Host.Outcome State Fault Refusal :=
  respond c.code 0#64 (enterFault c s)

/-- R98 step 3 and R243: with FAULT = 1 the command is refused with (FAULTED, 0) and nothing changes. -/
def whenLive (s : State) (body : Host.Outcome State Fault Refusal) : Host.Outcome State Fault Refusal :=
  if s.blk.fault then respond stFaulted 0#64 s else body

/-- The return from a fault, and every other reset (R43, R121, R247, R270): every piece of block state but NODE takes its
reset value, PQ is emptied, and the environment stays (R272). -/
def resetBlock (s : State) : State :=
  { s with blk := { Block.reset with node := s.blk.node }, tmp.pq := [] }

/-! ### The streams -/

/-- `SrcNext()` (R62). -/
def srcNext (s : State) : Option Byte × State :=
  match s.env.src[s.env.spos]? with
  | none => (none, s)
  | some b => (some b, { s with env.spos := s.env.spos + 1 })

/-- `[SrcNext(), …, SrcNext()]`, `n` times (R132). -/
def srcNextN : Nat → State → List Byte × State
  | 0, s => ([], s)
  | n + 1, s =>
    match srcNext s with
    | (none, s1) => ([], s1)
    | (some b, s1) =>
      match srcNextN n s1 with
      | (bs, s2) => (b :: bs, s2)

/-- SPOS <- |SRC|: the drain of RDWORD (R132). -/
def srcDrain (s : State) : State := { s with env.spos := s.env.src.length }

/-- `SnkPut(b)` (R64). -/
def snkPut (b : Byte) (s : State) : State := { s with env.snk := s.env.snk ++ [b] }

/-- `SnkPut` of each byte in order (R142). -/
def snkPutAll (bs : List Byte) (s : State) : State := bs.foldl (fun t b => snkPut b t) s

/-- `SnkFlush()` (R65). -/
def snkFlush (s : State) : State := { s with env.snkfl := s.env.snkfl + 1 }

/-! ### The bit buffers -/

/-- The delivery half of `RdBit()` (R130): bit RBUF[RCNT − 1], then RCNT <- RCNT − 1. -/
def takeBit (s : State) : Bool × State :=
  (s.blk.rbuf.getLsbD (s.blk.rcnt.toNat - 1), { s with blk.rcnt := s.blk.rcnt - 1#4 })

/-- The refill of `RdBit()` (R130): RBUF <- b; RCNT <- 8. -/
def refill (b : Byte) (s : State) : State := { s with blk.rbuf := b, blk.rcnt := 8#4 }

/-- `RdBit()` (R130). -/
def rdBit (s : State) : Option Bool × State :=
  if s.blk.rcnt = 0#4 then
    match srcNext s with
    | (none, s1) => (none, s1)
    | (some b, s1) =>
      match takeBit (refill b s1) with
      | (bit, s2) => (some bit, s2)
  else
    match takeBit s with
    | (bit, s1) => (some bit, s1)

/-- WBUF <- w; WCNT <- n. -/
def setWriter (w : BitVec 8) (n : BitVec 3) (s : State) : State := { s with blk.wbuf := w, blk.wcnt := n }

/-- `WrBit(b)` (R140). -/
def wrBit (b : Bool) (s : State) : State :=
  let w := setBit s.blk.wbuf (7 - s.blk.wcnt.toNat) b
  if s.blk.wcnt = 7#3 then setWriter 0x00#8 0#3 (snkPut w s)
  else setWriter w (s.blk.wcnt + 1#3) s

/-! ### The frequency table, the leaf index and the arena -/

/-- FREQ[a] (R31). -/
def readFreq (b : Block) (a : Sym) : Count := b.freq[a.toNat]'a.isLt

/-- FREQ[a] <- n (R31). -/
def setFreq (a : Sym) (n : Count) (s : State) : State :=
  { s with blk.freq := s.blk.freq.set a.toNat n a.isLt }

/-- LEAF[a] (R37). -/
def readLeaf (b : Block) (a : Sym) : NodeIdx := b.leaf[a.toNat]'a.isLt

/-- LEAF[a] <- i (R37). -/
def setLeaf (a : Sym) (i : NodeIdx) (s : State) : State :=
  { s with blk.leaf := s.blk.leaf.set a.toNat i a.isLt }

/-- NODE[i] (R32). NIL names no entry, and no rule reads it: every use tests for NIL first (log 10). -/
def readNode (b : Block) (i : NodeIdx) : Node := b.node[i.toNat]?.getD Node.zero

/-- The child of a node that a bit selects: descending to c0 is code bit 0, to c1 code bit 1 (R193). -/
def child (b : Block) (i : NodeIdx) (bit : Bool) : NodeIdx := if bit then (readNode b i).c1 else (readNode b i).c0

/-- NODE[i] <- n (R32); NIL names no entry. -/
def setNode (i : NodeIdx) (n : Node) (s : State) : State :=
  { s with blk.node := s.blk.node.setIfInBounds i.toNat n }

/-- NODE[i].par <- p (R168, R169). -/
def setPar (i p : NodeIdx) (s : State) : State := setNode i { readNode s.blk i with par := p } s

/-- NNODE <- n (R34). -/
def setNnode (n : NodeIdx) (s : State) : State := { s with blk.nnode := n }

/-- NLEAF <- n (R35). -/
def setNleaf (n : BitVec 9) (s : State) : State := { s with blk.nleaf := n }

/-- ROOT <- r (R36). -/
def setRoot (r : NodeIdx) (s : State) : State := { s with blk.root := r }

/-- TVALID <- 1 (R170). -/
def setTvalid (s : State) : State := { s with blk.tvalid := true }

/-- PQ <- q (R38). -/
def setPq (q : List NodeIdx) (s : State) : State := { s with tmp.pq := q }

/-! ### The transient registers of the codec -/

/-- CLEN <- n (R39). -/
def setClen (n : BitVec 8) (s : State) : State := { s with tmp.clen := n }

/-- CSTK[CLEN] <- b; CLEN <- CLEN + 1 (R190). -/
def pushCstk (b : Bool) (s : State) : State :=
  { s with tmp.cstk := s.tmp.cstk.setIfInBounds s.tmp.clen.toNat b, tmp.clen := s.tmp.clen + 1#8 }

/-- CSTK[i] (R39). -/
def readCstk (s : State) (i : BitVec 8) : Bool := s.tmp.cstk[i.toNat]?.getD false

/-- CUR <- i; DLEN <- n (R40, R193). -/
def setCursor (i : NodeIdx) (n : BitVec 8) (s : State) : State := { s with tmp.cur := i, tmp.dlen := n }

end Sys2Proof.Machine
end

