-- ==== Sys2Proof/Machine/Codec.lean ====
section
/-! DEFINITION. ENCODE, DECODE and the function `Code` (rules R190 to R193). -/

namespace Sys2Proof.Machine

/-- The walk of `Code(s)` (R191): the bits from a node up to the root, in leaf-to-root order, in at most the given number
of steps. -/
def codeUp (b : Block) : Nat → NodeIdx → List Bool
  | 0, _ => []
  | k + 1, n =>
    let p := (readNode b n).par
    if p = nilIdx then [] else ((readNode b p).c1 == n) :: codeUp b k p

/-- `Code(a)` (R191): the bits along the path from the root to the leaf of `a`. A function of the spec, not a command
(R5 (b)). -/
def code (b : Block) (a : Sym) : List Bool := (codeUp b maxDepth (readLeaf b a)).reverse

/-- The leaf-to-root walk of ENCODE (R190), pushing on CSTK, with room for the given number of bits; `none` when a
further bit would have to be pushed on a full stack (log 9). -/
def pushCode : Nat → NodeIdx → State → Option State
  | 0, n, s => if (readNode s.blk n).par = nilIdx then some s else none
  | k + 1, n, s =>
    let p := (readNode s.blk n).par
    if p = nilIdx then some s
    else pushCode k p (pushCstk ((readNode s.blk p).c1 == n) s)

/-- The emission of ENCODE (R190): while CLEN > 0, CLEN <- CLEN − 1 and `WrBit(CSTK[CLEN])`. -/
def emitCode : Nat → State → State
  | 0, s => s
  | k + 1, s =>
    let s1 := setClen (s.tmp.clen - 1#8) s
    emitCode k (wrBit (readCstk s1 s1.tmp.clen) s1)

/-- ENCODE (R190). -/
def execEncode (a : Sym) (s : State) : Host.Outcome State Fault Refusal :=
  whenLive s
    (if s.blk.tvalid = false ∨ s.blk.root = nilIdx then raise .noTree s
     else if readLeaf s.blk a = nilIdx then raise .noLeaf s
     else
       match pushCode maxDepth (readLeaf s.blk a) (setClen 0#8 s) with
       | none => .fault .encodeStackFull
       | some s1 => respond stOk (rdOfByte s1.tmp.clen) (emitCode s1.tmp.clen.toNat s1))

/-- The root-to-leaf descent of DECODE (R193) from CUR, with at most the given number of bits still to be read
(log 9). -/
def descend : Nat → State → Host.Outcome State Fault Refusal
  | 0, _ => .fault .decodeTooDeep
  | k + 1, s =>
    match rdBit s with
    | (none, s1) =>
      if s1.tmp.dlen = 0#8 then respond stEod 0#64 s1 else raise .malformedBitstream s1
    | (some bit, s1) =>
      let c := child s1.blk s1.tmp.cur bit
      if c = nilIdx then raise .malformedBitstream s1
      else
        let s2 := setCursor c (s1.tmp.dlen + 1#8) s1
        if (readNode s2.blk c).kind = .leaf then respond stOk (rdOfByte (readNode s2.blk c).sym) s2
        else descend k s2

/-- DECODE (R193). -/
def execDecode (s : State) : Host.Outcome State Fault Refusal :=
  whenLive s
    (if s.blk.tvalid = false ∨ s.blk.root = nilIdx then raise .noTree s
     else descend maxDepth (setCursor s.blk.root 0#8 s))

end Sys2Proof.Machine
end

