-- ==== Sys2Proof/Machine/Control.lean ====
section
/-! DEFINITION. NOP, RESET, RDSTAT (rules R120 to R122). -/

namespace Sys2Proof.Machine

/-- NOP (R120). -/
def execNop (s : State) : Host.Outcome State Fault Refusal := whenLive s (respond stOk 0#64 s)

/-- RESET (R121): accepted when FAULT = 1 (R98 step 2). -/
def execReset (s : State) : Host.Outcome State Fault Refusal := respond stOk 0#64 (resetBlock s)

/-- RDSTAT (R122): accepted when FAULT = 1 (R98 step 2). -/
def execRdstat (s : State) : Host.Outcome State Fault Refusal := respond stOk (statusWord s.blk) s

end Sys2Proof.Machine
end

