-- ==== Sys2Proof/Machine/Reader.lean ====
section
/-! DEFINITION. RDBIT, RDBYTE, RDWORD (rules R130 to R132). -/

namespace Sys2Proof.Machine

/-- RDBIT (R130). -/
def execRdbit (s : State) : Host.Outcome State Fault Refusal :=
  whenLive s
    (match rdBit s with
     | (some bit, s1) => respond stOk (rdOfBit bit) s1
     | (none, s1) => respond stEod 0#64 s1)

/-- RDBYTE (R131). -/
def execRdbyte (s : State) : Host.Outcome State Fault Refusal :=
  whenLive s
    (match srcNext s with
     | (some b, s1) => respond stOk (rdOfByte b) s1
     | (none, s1) => respond stEod 0#64 s1)

/-- RDWORD (R132). -/
def execRdword (s : State) : Host.Outcome State Fault Refusal :=
  whenLive s
    (let rem := s.env.src.length - s.env.spos
     if rem = 0 then respond stEod 0#64 s
     else if rem < wordBytes then raise .endOfStream (srcDrain s)
     else
       match srcNextN wordBytes s with
       | (bytes, s1) => respond stOk (bytesToWord s.cfg.wordBigEndian bytes) s1)

end Sys2Proof.Machine
end

