-- ==== Sys2Proof/Machine/Table.lean ====
section
/-! DEFINITION. COUNT, SETFREQ, GETFREQ (rules R150 to R152). -/

namespace Sys2Proof.Machine

/-- COUNT (R150). -/
def execCount (a : Sym) (s : State) : Host.Outcome State Fault Refusal :=
  whenLive s
    (if s.blk.tvalid then raise .sequence s
     else if readFreq s.blk a = BitVec.allOnes 64 then raise .countOverflow s
     else respond stOk 0#64 (setFreq a (readFreq s.blk a + 1#64) s))

/-- SETFREQ (R151). -/
def execSetfreq (a : Sym) (d : Count) (s : State) : Host.Outcome State Fault Refusal :=
  whenLive s
    (if s.blk.tvalid then raise .sequence s
     else respond stOk 0#64 (setFreq a d s))

/-- GETFREQ (R152). -/
def execGetfreq (a : Sym) (s : State) : Host.Outcome State Fault Refusal :=
  whenLive s (respond stOk (readFreq s.blk a) s)

end Sys2Proof.Machine
end

