-- ==== Sys2Proof/Machine/Tree.lean ====
section
/-! DEFINITION. BUILD with its priority queue, GETNLEAF, GETTOTAL (rules R160 to R178). -/

namespace Sys2Proof.Machine

/-- `Key(i) < Key(j)` for Key(i) = (NODE[i].count, NODE[i].sym, i), compared lexicographically as unsigned integers
(R163). -/
def keyLt (b : Block) (i j : NodeIdx) : Bool :=
  let x := readNode b i
  let y := readNode b j
  if x.count ≠ y.count then x.count.toNat < y.count.toNat
  else if x.sym ≠ y.sym then x.sym.toNat < y.sym.toNat
  else i.toNat < j.toNat

/-- The member with the least Key among `m` and a list. -/
def leastKey (b : Block) : NodeIdx → List NodeIdx → NodeIdx
  | m, [] => m
  | m, j :: js => leastKey b (if keyLt b j m then j else m) js

/-- `PQ.insert(i)` (R162). -/
def pqInsert (i : NodeIdx) (s : State) : State := setPq (i :: s.tmp.pq) s

/-- `PopMin()` (R164); `none` on the empty queue, on which it is never called. -/
def popMin (s : State) : Option (NodeIdx × State) :=
  match s.tmp.pq with
  | [] => none
  | i :: is =>
    let m := leastKey s.blk i is
    some (m, setPq ((i :: is).erase m) s)

/-- NODE[NNODE] <- n; NNODE <- NNODE + 1 (R165, R168, R169). -/
def allocNode (n : Node) (s : State) : State := setNnode (s.blk.nnode + 1#9) (setNode s.blk.nnode n s)

/-- One symbol of the leaf phase (R165). -/
def leafStep (s : State) (a : Sym) : State :=
  if readFreq s.blk a = 0#64 then setLeaf a nilIdx s
  else
    let i := s.blk.nnode
    allocNode { kind := .leaf, sym := a, count := readFreq s.blk a, c0 := nilIdx, c1 := nilIdx, par := nilIdx }
      (pqInsert i (setLeaf a i s))

/-- The symbols 0, 1, …, 255 in this order (R165). -/
def allSyms : List Sym := (List.range 256).map (BitVec.ofNat 8)

/-- `LeafPhase()` (R165). -/
def leafPhase (s : State) : State :=
  let t := allSyms.foldl leafStep s
  setNleaf t.blk.nnode t

/-- `MergeStep()` (R168). The first component is the cause raised, if any. It is called with |PQ| ≥ 2 only. -/
def mergeStep (s : State) : Option Cause × State :=
  match popMin s with
  | none => (none, s)
  | some (a, s1) =>
    match popMin s1 with
    | none => (none, s1)
    | some (b, s2) =>
      let sum := (readNode s2.blk a).count.toNat + (readNode s2.blk b).count.toNat
      if sum > 2 ^ 64 - 1 then (some .countOverflow, s2)
      else
        let i := s2.blk.nnode
        (none,
          pqInsert i
            (setPar b i
              (setPar a i
                (allocNode
                  { kind := .internal, sym := 0#8, count := BitVec.ofNat 64 sum, c0 := a, c1 := b, par := nilIdx }
                  s2))))

/-- `MergeLoop()` (R167), for at most the given number of merge steps. -/
def mergeLoop : Nat → State → Option Cause × State
  | 0, s => (none, s)
  | n + 1, s =>
    if s.tmp.pq.length > 1 then
      match mergeStep s with
      | (some c, s1) => (some c, s1)
      | (none, s1) => mergeLoop n s1
    else (none, s)

/-- `RootPhase()` (R169), entered with |PQ| = 1. -/
def rootPhase (s : State) : State :=
  match popMin s with
  | none => s
  | some (r, s1) =>
    let n := readNode s1.blk r
    if n.kind = .leaf then
      let i := s1.blk.nnode
      setRoot i
        (setPar r i
          (allocNode { kind := .internal, sym := 0#8, count := n.count, c0 := r, c1 := nilIdx, par := nilIdx } s1))
    else setRoot r s1

/-- BUILD (R160). At most 255 merge steps are made (R285), since PQ has at most 256 members. -/
def execBuild (s : State) : Host.Outcome State Fault Refusal :=
  whenLive s
    (if s.blk.tvalid then raise .sequence s
     else
       let s1 := leafPhase (setPq [] (setNnode 0#9 s))
       if s1.blk.nleaf = 0#9 then respond stOk 0#64 (setTvalid (setRoot nilIdx s1))
       else
         match mergeLoop 255 s1 with
         | (some c, s2) => raise c s2
         | (none, s2) => respond stOk 0#64 (setTvalid (rootPhase s2)))

/-- GETNLEAF (R177). -/
def execGetnleaf (s : State) : Host.Outcome State Fault Refusal :=
  whenLive s (respond stOk (rdOfNleaf s.blk.nleaf) s)

/-- GETTOTAL (R178). -/
def execGettotal (s : State) : Host.Outcome State Fault Refusal :=
  whenLive s
    (if s.blk.root = nilIdx then respond stOk 0#64 s
     else respond stOk (readNode s.blk s.blk.root).count s)

end Sys2Proof.Machine
end

