-- ==== Sys2Proof/Machine/Writer.lean ====
section
/-! DEFINITION. WRBIT, WRBYTE, WRWORD, FLUSH (rules R140 to R143). -/

namespace Sys2Proof.Machine

/-- WRBIT (R140). -/
def execWrbit (a : BitVec 8) (s : State) : Host.Outcome State Fault Refusal :=
  whenLive s (respond stOk 0#64 (wrBit (bitOperand a) s))

/-- WRBYTE (R141). -/
def execWrbyte (d : BitVec 64) (s : State) : Host.Outcome State Fault Refusal :=
  whenLive s (respond stOk 0#64 (snkPut (byteOperand d) s))

/-- WRWORD (R142). -/
def execWrword (d : BitVec 64) (s : State) : Host.Outcome State Fault Refusal :=
  whenLive s (respond stOk 0#64 (snkPutAll (wordToBytes s.cfg.wordBigEndian d) s))

/-- FLUSH (R143): the sink is flushed on every FLUSH, a byte is emitted only when bits are pending. -/
def execFlush (s : State) : Host.Outcome State Fault Refusal :=
  whenLive s
    (let s1 := if s.blk.wcnt = 0#3 then s else setWriter 0x00#8 0#3 (snkPut s.blk.wbuf s)
     respond stOk 0#64 (snkFlush s1))

end Sys2Proof.Machine
end

