-- ==== Sys2Proof/Machine/Dispatch.lean ====
section
/-! DEFINITION. One arm per command (rule R95). -/

namespace Sys2Proof.Machine

def exec (i : Instr) (s : State) : Host.Outcome State Fault Refusal :=
  match i with
  | .nop => Sys2Proof.Machine.execNop s
  | .reset => Sys2Proof.Machine.execReset s
  | .rdstat => Sys2Proof.Machine.execRdstat s
  | .rdbit => Sys2Proof.Machine.execRdbit s
  | .rdbyte => Sys2Proof.Machine.execRdbyte s
  | .rdword => Sys2Proof.Machine.execRdword s
  | .wrbit a => Sys2Proof.Machine.execWrbit a s
  | .wrbyte d => Sys2Proof.Machine.execWrbyte d s
  | .wrword d => Sys2Proof.Machine.execWrword d s
  | .flush => Sys2Proof.Machine.execFlush s
  | .count a => Sys2Proof.Machine.execCount a s
  | .setfreq a d => Sys2Proof.Machine.execSetfreq a d s
  | .getfreq a => Sys2Proof.Machine.execGetfreq a s
  | .build => Sys2Proof.Machine.execBuild s
  | .getnleaf => Sys2Proof.Machine.execGetnleaf s
  | .gettotal => Sys2Proof.Machine.execGettotal s
  | .encode a => Sys2Proof.Machine.execEncode a s
  | .decode => Sys2Proof.Machine.execDecode s

end Sys2Proof.Machine
end

