-- ==== Sys2Proof/Machine/Accept.lean ====
section
/-! DEFINITION. Accepting a command word (rules R97, R98), and what the host and the reset pin do to the machine between
and during commands (rules R66, R67, R270). -/

namespace Sys2Proof.Machine

/-- Decode-and-dispatch (R98). Steps 2, 3 and 5 are in the meanings: RESET and RDSTAT execute whatever FAULT is, every
other meaning begins with the test of step 3. -/
def acceptCommand (cw : CmdWord) (s : State) : Host.Outcome State Fault Refusal :=
  match decode cw with
  | .ok i => exec i s
  | .error _ => whenLive s (raise .illegalCmd s)

/-- The host rewinds the source: SPOS <- 0 (R66 (a)). -/
def rewindSource (s : State) : State := { s with env.spos := 0 }

/-- The host replaces the source: SRC <- bytes, SPOS <- 0 (R66 (b)). -/
def replaceSource (bytes : List Byte) (s : State) : State := { s with env.src := bytes, env.spos := 0 }

/-- The host replaces the sink: SNK <- [], SNKFL <- 0 (R67). -/
def replaceSink (s : State) : State := { s with env.snk := [], env.snkfl := 0 }

/-- The environment when a command that would have taken it from `e0` to `e1` is abandoned after `made` of its
environment effects, in the order the command makes them: source bytes, then sink bytes, then the flush strobe. No
command has both source and sink effects (R71, log 13). -/
def abandonedEnv (e0 e1 : Env) (made : Nat) : Env :=
  let taken := min made (e1.spos - e0.spos)
  let put := min (made - taken) (e1.snk.length - e0.snk.length)
  let strobes := min (made - taken - put) (e1.snkfl - e0.snkfl)
  { src := e0.src, spos := e0.spos + taken, snk := e1.snk.take (e0.snk.length + put), snkfl := e0.snkfl + strobes }

/-- rst_n goes low while the command `cw` is in flight (R270): the command is abandoned without a response, the block
takes its reset state, and the environment effects already made stand. -/
def resetDuring (cw : CmdWord) (made : Nat) (s : State) : Host.Outcome State Fault Refusal :=
  match acceptCommand cw s with
  | .next t => .next { resetBlock s with env := abandonedEnv s.env t.env made }
  | .fault f => .fault f
  | .refused r => .refused r

/-- Take one host input. -/
def takeInput (inp : HostInput) (s : State) : Host.Outcome State Fault Refusal :=
  match inp with
  | .command cw => acceptCommand cw s
  | .rewind => .next (rewindSource s)
  | .replaceSource bytes => .next (replaceSource bytes s)
  | .replaceSink => .next (replaceSink s)
  | .pinReset => .next (resetBlock s)
  | .pinResetDuring cw made => resetDuring cw made s

end Sys2Proof.Machine
end

