-- ==== Sys2Proof/Machine/Step.lean ====
section
/-! DEFINITION. One step of the system: the oldest pending host input is taken (rules R7, R8, R75, R102). -/

namespace Sys2Proof.Machine

/-- One step. With no input pending the block is idle and holds its state (R255, log 2). -/
def step (s : State) : Host.Outcome State Fault Refusal :=
  match s.port.inputs with
  | [] => .next s
  | inp :: rest => takeInput inp { s with port.inputs := rest }

/-- `s` with the command word of a table row presented as the next input, so that the next step accepts exactly it
(log 8). -/
def State.withFetchWord (s : State) (nbits w : Nat) : State :=
  { s with port.inputs := .command (tableWord nbits w) :: s.port.inputs }

end Sys2Proof.Machine
end

