-- ==== Sys2Proof/Machine/Transaction.lean ====
section
/-! DEFINITION. The step function of HUFFCORE with the arguments and the result that the spec gives it (rules R8, R44): the
parameters, the content of the source and the command word come in as arguments, the response word goes out. The host's
interface takes a step on one state alone, so `State` carries them around it (logs 1, 3, 4). -/

namespace Sys2Proof.Machine

/-- What is state by R20 and R44, and nothing else: the block, its transient registers, and of the environment what a
command can change. -/
structure System where
  blk : Block
  tmp : Transient
  spos : Nat
  snk : List Byte
  snkfl : Nat
  deriving DecidableEq, Repr

/-- The part of a state that is state by R44. -/
def State.system (s : State) : System where
  blk := s.blk
  tmp := s.tmp
  spos := s.env.spos
  snk := s.env.snk
  snkfl := s.env.snkfl

/-- A system with its parameters, its source and its port around it. -/
def State.around (p : Config) (src : List Byte) (port : Port) (x : System) : State where
  blk := x.blk
  tmp := x.tmp
  env := { src := src, spos := x.spos, snk := x.snk, snkfl := x.snkfl }
  cfg := p
  port := port

/-- The response of the command that has just executed: the last word transferred. -/
def lastRsp (s : State) : Response := s.port.rsps.getLastD { st := 0#8, rd := 0#64 }

/-- The step function of R8: under the parameters `p`, over a source with the content `src`, the command word `cw` takes a
system to the next one and gives one response. -/
def transact (p : Config) (src : List Byte) (cw : CmdWord) (x : System) :
    Host.Outcome (System × Response) Fault Refusal :=
  match acceptCommand cw (State.around p src { inputs := [], rsps := [] } x) with
  | .next t => .next (t.system, lastRsp t)
  | .fault f => .fault f
  | .refused r => .refused r

end Sys2Proof.Machine
end

