-- ==== Sys2Proof/Machine/HostSequences.lean ====
section
/-! DEFINITION. The host's compress and decompress sequences as programs over the commands (rules R210 to R222), and the
translation of written commands into host inputs (rules R100, R101). They bind the host, not the block; no step uses
them. -/

namespace Sys2Proof.Machine

/-- The result of a host sequence (R218): success, or failure with a code. -/
inductive HostResult where
  | success
  | failure (code : BitVec 8)
  deriving DecidableEq, Repr

/-- What a host sequence answers: its result and the system it leaves. -/
abbrev HostRun := Host.Outcome (HostResult × State) Fault Refusal

/-- The sequence ends with a result. -/
def finish (r : HostResult) (s : State) : HostRun := .next (r, s)

/-- `cmd(...)`: issue a command and go on with its response (R216). -/
def issue (i : Instr) (s : State) (k : Response → State → HostRun) : HostRun :=
  match acceptCommand (encode i) s with
  | .next t => k (lastRsp t) t
  | .fault f => .fault f
  | .refused r => .refused r

/-- `cmd(...)` in the compress sequence: "Any response with a fault status makes the sequence return failure with that
cause" (R216). FAULTED is treated so too (log 15). -/
def issueOk (i : Instr) (s : State) (k : Response → State → HostRun) : HostRun :=
  issue i s (fun r t => if r.st = stOk ∨ r.st = stEod then k r t else finish (.failure r.st) t)

/-- The low byte of a response's data. -/
def rdByte (r : Response) : Byte := r.rd.setWidth 8

/-! ### Compress (R216) -/

/-- Step (a): "count frequencies over the raw input". The first argument bounds the number of RDBYTEs. -/
def countLoop : Nat → State → (State → HostRun) → HostRun
  | 0, s, k => k s
  | n + 1, s, k =>
    issueOk .rdbyte s fun r s1 =>
      if r.st = stEod then k s1
      else issueOk (.count (rdByte r)) s1 fun _ s2 => countLoop n s2 k

/-- Step (c), first scan: the symbols with a positive count. -/
def writeSyms : List Sym → State → (State → HostRun) → HostRun
  | [], s, k => k s
  | a :: as, s, k =>
    issueOk (.getfreq a) s fun r s1 =>
      if r.rd = 0#64 then writeSyms as s1 k
      else issueOk (.wrbyte (a.setWidth 64)) s1 fun _ s2 => writeSyms as s2 k

/-- Step (c), second scan: their counts. -/
def writeCounts : List Sym → State → (State → HostRun) → HostRun
  | [], s, k => k s
  | a :: as, s, k =>
    issueOk (.getfreq a) s fun r s1 =>
      if r.rd = 0#64 then writeCounts as s1 k
      else issueOk (.wrword r.rd) s1 fun _ s2 => writeCounts as s2 k

/-- Step (d): "for every byte, emit its bit-path via the tree". -/
def encodeLoop : Nat → State → (State → HostRun) → HostRun
  | 0, s, k => k s
  | n + 1, s, k =>
    issueOk .rdbyte s fun r s1 =>
      if r.st = stEod then k s1
      else issueOk (.encode (rdByte r)) s1 fun _ s2 => encodeLoop n s2 k

/-- The compress sequence (R216), on a block just reset, a source at SPOS = 0 and an empty sink. -/
def compress (s : State) : HostRun :=
  countLoop (s.env.src.length + 1) s fun s1 =>
  issueOk .build s1 fun _ s2 =>
  issueOk .getnleaf s2 fun r s3 =>
  if r.rd = 0#64 then finish .success s3
  else
    issueOk (.wrbyte (r.rd - 1#64)) s3 fun _ s4 =>
    writeSyms allSyms s4 fun s5 =>
    writeCounts allSyms s5 fun s6 =>
    encodeLoop (s.env.src.length + 1) (rewindSource s6) fun s7 =>
    issueOk .flush s7 fun _ s8 => finish .success s8

/-! ### Decompress (R217) -/

/-- Step (a): the symbol list, in the order it is read. -/
def readSyms : Nat → State → (List Sym → State → HostRun) → HostRun
  | 0, s, k => k [] s
  | n + 1, s, k =>
    issue .rdbyte s fun r s1 =>
      if r.st = stEod then finish (.failure codeMalformedHeader) s1
      else readSyms n s1 fun as s2 => k (rdByte r :: as) s2

/-- Step (a): the counts, with the checks of R219. -/
def readCounts : List Sym → State → (State → HostRun) → HostRun
  | [], s, k => k s
  | a :: as, s, k =>
    issue .rdword s fun r s1 =>
      if r.st ≠ stOk then finish (.failure codeMalformedHeader) s1
      else
        issue (.getfreq a) s1 fun old s2 =>
          if r.rd = 0#64 ∨ old.rd ≠ 0#64 then finish (.failure codeMalformedHeader) s2
          else issue (.setfreq a r.rd) s2 fun _ s3 => readCounts as s3 k

/-- Step (d): decode the given number of symbols. -/
def decodeLoop : Nat → State → HostRun
  | 0, s => finish .success s
  | n + 1, s =>
    issue .decode s fun r s1 =>
      if r.st = stEod then finish (.failure Cause.endOfStream.code) s1
      else if r.st ≠ stOk then finish (.failure r.st) s1
      else issue (.wrbyte r.rd) s1 fun _ s2 => decodeLoop n s2

/-- The decompress sequence (R217), on a block just reset, a source at SPOS = 0 and an empty sink. -/
def decompress (s : State) : HostRun :=
  issue .rdbyte s fun r s1 =>
  if r.st = stEod then finish .success s1
  else
    readSyms ((rdByte r).toNat + 1) s1 fun as s2 =>
    readCounts as s2 fun s3 =>
    issue .build s3 fun b s4 =>
    if b.st ≠ stOk then finish (.failure b.st) s4
    else issue .gettotal s4 fun total s5 => decodeLoop total.rd.toNat s5

/-! ### The entry points (R221, R222) -/

/-- What the host does with the result: on failure it discards the sink and issues RESET (R67, R221). -/
def settle (run : HostRun) : HostRun :=
  match run with
  | .next (.success, t) => .next (.success, t)
  | .next (.failure c, t) => issue .reset (replaceSink t) fun _ u => finish (.failure c) u
  | .fault f => .fault f
  | .refused r => .refused r

/-- `compress(outputSink, inputSource)` (R222): a new sink, the source given, RESET, then the sequence of R216. -/
def compressJob (input : List Byte) (s : State) : HostRun :=
  settle (issue .reset (replaceSink (replaceSource input s)) fun _ t => compress t)

/-- `decompress(outputSink, inputSource)` (R222): a new sink, the source given, RESET, then the sequence of R217. -/
def decompressJob (input : List Byte) (s : State) : HostRun :=
  settle (issue .reset (replaceSink (replaceSource input s)) fun _ t => decompress t)

/-! ### Written commands (R100, R101) -/

/-- The host inputs a written form stands for: an assembler "places the operands in the fields rule R92 gives and zeroes
the rest" (R100), and the pseudo-commands expand to real commands or to the host action (R101). `none` where an operand
does not fit. -/
def assemble (w : Written) : Option (List HostInput) :=
  if w.wellFormed then
    some (match w with
      | .nop => [.command (encode .nop)]
      | .reset => [.command (encode .reset)]
      | .rdstat => [.command (encode .rdstat)]
      | .rdbit => [.command (encode .rdbit)]
      | .rdbyte => [.command (encode .rdbyte)]
      | .rdword => [.command (encode .rdword)]
      | .wrbit bit => [.command (encode (.wrbit (BitVec.ofNat 8 bit)))]
      | .wrbyte b => [.command (encode (.wrbyte (BitVec.ofNat 64 b)))]
      | .wrword n => [.command (encode (.wrword (BitVec.ofNat 64 n)))]
      | .flush => [.command (encode .flush)]
      | .count sym => [.command (encode (.count (BitVec.ofNat 8 sym)))]
      | .setfreq sym n => [.command (encode (.setfreq (BitVec.ofNat 8 sym) (BitVec.ofNat 64 n)))]
      | .getfreq sym => [.command (encode (.getfreq (BitVec.ofNat 8 sym)))]
      | .build => [.command (encode .build)]
      | .getnleaf => [.command (encode .getnleaf)]
      | .gettotal => [.command (encode .gettotal)]
      | .encode sym => [.command (encode (.encode (BitVec.ofNat 8 sym)))]
      | .decode => [.command (encode .decode)]
      | .wrbits bits => bits.map fun b => .command (encode (.wrbit (if b then 1#8 else 0#8)))
      | .rdbits k => List.replicate k (.command (encode .rdbit))
      | .hostRewind => [.rewind])
  else none

/-- The written response of `RDBITS k` (R101): "the string of returned bits, cut at the first non-OK status". -/
def rdbitsText (rsps : List Response) : List Bool :=
  (rsps.takeWhile fun r => r.st == stOk).map fun r => r.rd.getLsbD 0

end Sys2Proof.Machine
end

