-- ==== Sys2Proof/Safety.lean ====
section
/-! DEFINITION. The terms the statements use: the bit streams the two bit buffers stand for (rules R68, R78), the tree
invariants (R172), and the invariant of the machine. -/

namespace Sys2Proof.Machine

/-! ### Bit streams (R68) -/

/-- The bits of a byte, bit 7 first (R68). -/
def byteBits (b : Byte) : List Bool := (List.range 8).map fun i => b.getLsbD (7 - i)

/-- The bits of a byte sequence in stream order (R68). -/
def streamBits (bs : List Byte) : List Bool := bs.flatMap byteBits

/-- The bits the reader will deliver, in order: the RCNT bits of RBUF not yet delivered (R27), then the source from SPOS
on. -/
def bitsToRead (s : State) : List Bool :=
  (byteBits s.blk.rbuf).drop (8 - s.blk.rcnt.toNat) ++ streamBits (s.env.src.drop s.env.spos)

/-- The bits pending in the writer, oldest first: WBUF[7 : 8 − WCNT] (R29). -/
def pendingBits (b : Block) : List Bool := (byteBits b.wbuf).take b.wcnt.toNat

/-- All bits written so far: those of the sink, then those pending in the writer. -/
def bitsWritten (s : State) : List Bool := streamBits s.env.snk ++ pendingBits s.blk

/-! ### Running several commands -/

/-- Execute commands one after the other (R75 (a)), stopping at the first stop. -/
def execAll : List Instr → State → Host.Outcome State Fault Refusal
  | [], s => .next s
  | i :: is, s =>
    match exec i s with
    | .next t => execAll is t
    | .fault f => .fault f
    | .refused r => .refused r

/-! ### The tree (R172) -/

/-- The sum of FREQ[s] over all s, not wrapped (R171, R179). -/
def totalFreq (b : Block) : Nat := (b.freq.toList.map BitVec.toNat).sum

/-- `i` is a child of `p`, on one side only (R172 (d)). -/
def isChildOf (b : Block) (i p : NodeIdx) : Prop :=
  ((readNode b p).c0 = i ∧ (readNode b p).c1 ≠ i) ∨ ((readNode b p).c0 ≠ i ∧ (readNode b p).c1 = i)

/-- Key(i) < Key(j) (R163), component by component. -/
def keyBefore (b : Block) (i j : NodeIdx) : Prop :=
  (readNode b i).count.toNat < (readNode b j).count.toNat ∨
  ((readNode b i).count = (readNode b j).count ∧ (readNode b i).sym.toNat < (readNode b j).sym.toNat) ∨
  ((readNode b i).count = (readNode b j).count ∧ (readNode b i).sym = (readNode b j).sym ∧ i.toNat < j.toNat)

/-- The node reached from `i` by following the bits downward (R191, R193). -/
def followBits (b : Block) (i : NodeIdx) (bits : List Bool) : NodeIdx := bits.foldl (child b) i

/-- What a BUILD that returned OK leaves (R172), for the tree of FREQ in NODE[0 .. NNODE−1], LEAF, NLEAF and ROOT. -/
structure TreeOk (b : Block) : Prop where
  /-- NLEAF is the number of symbols with a positive count (R35). -/
  leafCount : b.nleaf.toNat = (b.freq.toList.filter (fun n => n ≠ 0#64)).length
  /-- (h). -/
  nodeCount : b.nnode.toNat =
    if b.nleaf.toNat = 0 then 0 else if b.nleaf.toNat = 1 then 2 else 2 * b.nleaf.toNat - 1
  /-- ROOT = NNODE − 1, or NIL when there is no leaf (e), (f). -/
  rootIs : b.root = if b.nleaf = 0#9 then nilIdx else b.nnode - 1#9
  /-- (a), and R33: a LEAF has no children; the leaves are NODE[0 .. L−1], one for each symbol with a positive count. -/
  leaves : ∀ i : NodeIdx, i.toNat < b.nleaf.toNat →
    (readNode b i).kind = .leaf ∧ (readNode b i).c0 = nilIdx ∧ (readNode b i).c1 = nilIdx ∧
    (readNode b i).count = readFreq b (readNode b i).sym ∧ (readNode b i).count ≠ 0#64 ∧
    readLeaf b (readNode b i).sym = i
  /-- (g). -/
  leafIndex : ∀ a : Sym, if readFreq b a = 0#64 then readLeaf b a = nilIdx
    else (readLeaf b a).toNat < b.nleaf.toNat ∧ (readNode b (readLeaf b a)).sym = a
  /-- (e), (f): an INTERNAL node has a "0" child below it, and a "1" child below it, another one, unless L = 1. -/
  inner : ∀ i : NodeIdx, b.nleaf.toNat ≤ i.toNat → i.toNat < b.nnode.toNat →
    (readNode b i).kind = .internal ∧ (readNode b i).sym = 0#8 ∧
    (readNode b i).c0.toNat < i.toNat ∧ (readNode b (readNode b i).c0).par = i ∧
    (if b.nleaf.toNat = 1 then (readNode b i).c1 = nilIdx
     else (readNode b i).c1.toNat < i.toNat ∧ (readNode b (readNode b i).c1).par = i ∧
       (readNode b i).c0 ≠ (readNode b i).c1)
  /-- (b): the count of an INTERNAL node is the sum of its children's counts, or its single child's. -/
  sums : ∀ i : NodeIdx, b.nleaf.toNat ≤ i.toNat → i.toNat < b.nnode.toNat →
    (readNode b i).count.toNat = (readNode b (readNode b i).c0).count.toNat +
      (if (readNode b i).c1 = nilIdx then 0 else (readNode b (readNode b i).c1).count.toNat)
  /-- (c): a node that some INTERNAL node points to has that node as its parent, and is not the root. -/
  owners : ∀ p i : NodeIdx, b.nleaf.toNat ≤ p.toNat → p.toNat < b.nnode.toNat → i ≠ nilIdx →
    ((readNode b p).c0 = i ∨ (readNode b p).c1 = i) → i ≠ b.root ∧ (readNode b i).par = p
  /-- (i). -/
  rootInternal : b.root ≠ nilIdx → (readNode b b.root).kind = .internal
  /-- (c), (d): the root has no parent; every other node is a child of its parent, on one side, and lies below it. -/
  parents : ∀ i : NodeIdx, i.toNat < b.nnode.toNat →
    if i = b.root then (readNode b i).par = nilIdx
    else i.toNat < (readNode b i).par.toNat ∧ (readNode b i).par.toNat < b.nnode.toNat ∧
      isChildOf b i (readNode b i).par

/-! ### The invariant -/

/-- What holds of a HUFFCORE that began at reset, whatever the host did: the legal values of RCNT (R28) and WBUF (R29),
CAUSE against FAULT (R26), no tree without TVALID (R36, R43), and the tree invariants while TVALID = 1 (R172). -/
structure Inv (s : State) : Prop where
  rcntLegal : s.blk.rcnt.toNat ≤ 8
  wbufLowZero : ∀ i : Nat, i < 8 - s.blk.wcnt.toNat → s.blk.wbuf.getLsbD i = false
  causeClear : s.blk.fault = false → s.blk.cause = 0x00#8
  causeSet : s.blk.fault = true → ∃ c : Cause, s.blk.cause = c.code
  noRoot : s.blk.tvalid = false → s.blk.root = nilIdx
  fresh : s.blk.tvalid = false → s.blk.fault = false →
    s.blk.nnode = 0#9 ∧ s.blk.nleaf = 0#9 ∧ ∀ a : Sym, readLeaf s.blk a = nilIdx
  tree : s.blk.tvalid = true → TreeOk s.blk
  sposLegal : s.env.spos ≤ s.env.src.length

/-- The state a command's own rule starts from when nothing has faulted (R98 step 5). -/
def live (s : State) : Prop := s.blk.fault = false

end Sys2Proof.Machine
end

