-- ==== Sys2Proof/Certificates/Slice0/Obligations.lean ====
section
/-! DEFINITION. The statements for the provers. Each docstring names the rules of spec/ it formalises; a clause that rests
on a choice of the model says so and names the log entry; "an inference of the spec" is a sentence that the spec itself
marks `[derived: …]`. -/

open Sys2Proof Sys2Proof.Machine

/-! ### Encoding -/

/-- R91, R92, R95, R97: the legal words are exactly the encodings of the well-formed instructions, and the decoder reads
from each of them the instruction it stands for, every operand bit included. -/
def Obligations.DecodeExactlyInvertsEncode : Prop :=
  ∀ (cw : CmdWord) (i : Instr), decode cw = .ok i ↔ i.wellFormed = true ∧ encode i = cw

/-- The encoded examples of spec/30_encoding.md section 8, one word written out for each family of the opcode map. -/
def Obligations.ExampleWordsDecode : Prop :=
  decode 0x00000000000000000000#80 = .ok .nop ∧
  decode 0x01000000000000000000#80 = .ok .reset ∧
  decode 0x10000000000000000000#80 = .ok .rdbit ∧
  decode 0x20010000000000000000#80 = .ok (.wrbit 0x01#8) ∧
  decode 0x21000000000000000041#80 = .ok (.wrbyte 0x41#64) ∧
  decode 0x220000000000000003E8#80 = .ok (.wrword 1000#64) ∧
  decode 0x30410000000000000000#80 = .ok (.count 0x41#8) ∧
  decode 0x314100000000000003E8#80 = .ok (.setfreq 0x41#8 1000#64) ∧
  decode 0x40000000000000000000#80 = .ok .build ∧
  decode 0x50430000000000000000#80 = .ok (.encode 0x43#8) ∧
  decode 0x51000000000000000000#80 = .ok .decode ∧
  decode 0x20020000000000000000#80 = .error .mustBeZeroBitSet ∧
  decode 0x13000000000000000000#80 = .error .undefinedOpcode

/-- R97, with the opcodes of R95 and the must-be-zero fields of R92 written out: an illegal word raises ILLEGAL_CMD and
changes nothing else when FAULT = 0, and is refused when FAULT = 1; the all-zero word is NOP. -/
def Obligations.IllegalWordRaisesIllegalCmd : Prop :=
  decode 0#80 = .ok .nop ∧
  ∀ (cw : CmdWord) (s : State),
    (opField cw ∉ [0x00#8, 0x01#8, 0x02#8, 0x10#8, 0x11#8, 0x12#8, 0x20#8, 0x21#8, 0x22#8, 0x23#8, 0x30#8, 0x31#8,
        0x32#8, 0x40#8, 0x41#8, 0x42#8, 0x50#8, 0x51#8] ∨
      (opField cw ∈ [0x00#8, 0x01#8, 0x02#8, 0x10#8, 0x11#8, 0x12#8, 0x23#8, 0x40#8, 0x41#8, 0x42#8, 0x51#8] ∧
        (aField cw ≠ 0#8 ∨ dField cw ≠ 0#64)) ∨
      (opField cw = 0x20#8 ∧ ((aField cw).extractLsb' 1 7 ≠ 0#7 ∨ dField cw ≠ 0#64)) ∨
      (opField cw ∈ [0x30#8, 0x32#8, 0x50#8] ∧ dField cw ≠ 0#64) ∨
      (opField cw ∈ [0x21#8, 0x22#8] ∧ aField cw ≠ 0#8)) →
    (s.blk.fault = false →
      acceptCommand cw s =
        .next (pushRsp 0x2F#8 0#64 { s with blk := { s.blk with fault := true, cause := 0x2F#8 } })) ∧
    (s.blk.fault = true → acceptCommand cw s = .next (pushRsp 0x02#8 0#64 s))

/-! ### One step -/

/-- R98, R102: a step that takes a command word which decodes to an instruction is that instruction's meaning, at the
state with the word taken off the port (the queue of host inputs is the model's own, log 1). -/
def Obligations.StepRunsTheDecodedCommand : Prop :=
  ∀ (s : State) (cw : CmdWord) (rest : List HostInput) (i : Instr),
    s.port.inputs = .command cw :: rest → decode cw = .ok i →
    step s = exec i { s with port := { s.port with inputs := rest } }

/-- R66, R67: what the host does to the source and the sink between two commands, and that it touches nothing else. -/
def Obligations.HostActionsTouchTheStreamsOnly : Prop :=
  ∀ (s : State) (rest : List HostInput),
    (s.port.inputs = .rewind :: rest →
      step s = .next { s with env := { s.env with spos := 0 }, port := { s.port with inputs := rest } }) ∧
    (∀ bytes, s.port.inputs = .replaceSource bytes :: rest →
      step s = .next { s with env := { s.env with src := bytes, spos := 0 }, port := { s.port with inputs := rest } }) ∧
    (s.port.inputs = .replaceSink :: rest →
      step s = .next { s with env := { s.env with snk := [], snkfl := 0 }, port := { s.port with inputs := rest } })

/-- R255: between commands the block is idle and holds its state (log 2: the model's idle step). -/
def Obligations.IdleStepHoldsTheState : Prop :=
  ∀ s : State, s.port.inputs = [] → step s = .next s

/-- R243: while FAULT = 1, every command word but RESET and RDSTAT, legal or not, is answered (FAULTED, 0) and changes no
block state and no environment state; RESET and RDSTAT execute. -/
def Obligations.FaultedBlockRefusesAllButResetAndRdstat : Prop :=
  ∀ (cw : CmdWord) (s : State), s.blk.fault = true →
    (decode cw ≠ .ok .reset → decode cw ≠ .ok .rdstat → acceptCommand cw s = .next (pushRsp 0x02#8 0#64 s)) ∧
    (decode cw = .ok .reset → ∃ t, acceptCommand cw s = .next t ∧ t.blk.fault = false ∧
      t.port.rsps = s.port.rsps ++ [⟨0x00#8, 0#64⟩]) ∧
    (decode cw = .ok .rdstat → ∃ rd, acceptCommand cw s = .next (pushRsp 0x00#8 rd s))

/-! ### Control -/

/-- R120. -/
def Obligations.NopDoesNothing : Prop :=
  decode (cmdWord 0x00#8 0#8 0#64) = .ok .nop ∧
  ∀ s : State,
    (s.blk.fault = false → exec .nop s = .next (pushRsp 0x00#8 0#64 s)) ∧
    (s.blk.fault = true → exec .nop s = .next (pushRsp 0x02#8 0#64 s))

/-- R121: RESET writes every reset value of R43, leaves NODE and the environment, is accepted whatever FAULT is, and is the
only command that clears FAULT; a RESET word with non-zero A or D is not RESET. That PQ is emptied is R43. That CSTK, CLEN,
CUR and DLEN keep their values is the model's choice (log 6): the spec calls them not observable. -/
def Obligations.ResetWritesTheResetValues : Prop :=
  decode (cmdWord 0x01#8 0#8 0#64) = .ok .reset ∧
  (∀ s : State,
    exec .reset s = .next (pushRsp 0x00#8 0#64
      { s with
        blk := { fault := false, tvalid := false, cause := 0x00#8, rbuf := 0x00#8, rcnt := 0#4, wbuf := 0x00#8,
                 wcnt := 0#3, freq := Vector.replicate 256 0#64, node := s.blk.node, nnode := 0#9, nleaf := 0#9,
                 root := 511#9, leaf := Vector.replicate 256 511#9 },
        tmp := { s.tmp with pq := [] } })) ∧
  (∀ (a : BitVec 8) (d : BitVec 64) (s : State), a ≠ 0#8 ∨ d ≠ 0#64 →
    (s.blk.fault = false → acceptCommand (cmdWord 0x01#8 a d) s =
      .next (pushRsp 0x2F#8 0#64 { s with blk := { s.blk with fault := true, cause := 0x2F#8 } })) ∧
    (s.blk.fault = true → acceptCommand (cmdWord 0x01#8 a d) s = .next (pushRsp 0x02#8 0#64 s))) ∧
  (∀ (cw : CmdWord) (s t : State), s.blk.fault = true → acceptCommand cw s = .next t → t.blk.fault = false →
    cw = cmdWord 0x01#8 0#8 0#64)

/-- R122, R42: RDSTAT answers OK with the STATUS word, field by field, in every state, and changes nothing. -/
def Obligations.RdstatReturnsTheStatusWord : Prop :=
  decode (cmdWord 0x02#8 0#8 0#64) = .ok .rdstat ∧
  ∀ s : State, ∃ w : BitVec 64, exec .rdstat s = .next (pushRsp 0x00#8 w s) ∧
    w.getLsbD 0 = s.blk.fault ∧ w.getLsbD 1 = s.blk.tvalid ∧ w.extractLsb' 2 6 = 0#6 ∧
    w.extractLsb' 8 8 = s.blk.cause ∧ w.extractLsb' 16 3 = s.blk.wcnt ∧ w.getLsbD 19 = false ∧
    w.extractLsb' 20 4 = s.blk.rcnt ∧ w.extractLsb' 24 40 = 0#40

/-! ### Reader -/

/-- R130, in the legal states of RCNT (R28): bit RBUF[RCNT − 1], a refill first when RCNT = 0, EOD when the source is
exhausted too. -/
def Obligations.RdbitDeliversTheNextBit : Prop :=
  decode (cmdWord 0x10#8 0#8 0#64) = .ok .rdbit ∧
  ∀ s : State, s.blk.fault = false →
    (s.blk.rcnt ≠ 0#4 → s.blk.rcnt.toNat ≤ 8 →
      exec .rdbit s = .next (pushRsp 0x00#8 (if s.blk.rbuf.getLsbD (s.blk.rcnt.toNat - 1) then 1#64 else 0#64)
        { s with blk := { s.blk with rcnt := s.blk.rcnt - 1#4 } })) ∧
    (s.blk.rcnt = 0#4 → ∀ h : s.env.spos < s.env.src.length,
      exec .rdbit s = .next (pushRsp 0x00#8 (if s.env.src[s.env.spos].getLsbD 7 then 1#64 else 0#64)
        { s with blk := { s.blk with rbuf := s.env.src[s.env.spos], rcnt := 7#4 },
                 env := { s.env with spos := s.env.spos + 1 } })) ∧
    (s.blk.rcnt = 0#4 → s.env.src.length ≤ s.env.spos → exec .rdbit s = .next (pushRsp 0x01#8 0#64 s))

/-- R131: the next source byte whatever the bit buffer holds, which is left alone; EOD when the source is exhausted. -/
def Obligations.RdbyteReturnsTheNextByte : Prop :=
  decode (cmdWord 0x11#8 0#8 0#64) = .ok .rdbyte ∧
  ∀ s : State, s.blk.fault = false →
    (∀ h : s.env.spos < s.env.src.length,
      exec .rdbyte s = .next (pushRsp 0x00#8 (BitVec.ofNat 64 s.env.src[s.env.spos].toNat)
        { s with env := { s.env with spos := s.env.spos + 1 } })) ∧
    (s.env.src.length ≤ s.env.spos → exec .rdbyte s = .next (pushRsp 0x01#8 0#64 s))

/-- R132, R69: EOD at a clean boundary, END_OF_STREAM with the 1 to 7 bytes consumed, else the eight bytes as one integer
in the byte order of WORD_BIG_ENDIAN. -/
def Obligations.RdwordReadsEightBytes : Prop :=
  decode (cmdWord 0x12#8 0#8 0#64) = .ok .rdword ∧
  ∀ s : State, s.blk.fault = false →
    (s.env.src.length ≤ s.env.spos → exec .rdword s = .next (pushRsp 0x01#8 0#64 s)) ∧
    (s.env.spos < s.env.src.length → s.env.src.length < s.env.spos + 8 →
      exec .rdword s = .next (pushRsp 0x10#8 0#64
        { s with blk := { s.blk with fault := true, cause := 0x10#8 },
                 env := { s.env with spos := s.env.src.length } })) ∧
    (s.env.spos + 8 ≤ s.env.src.length → ∃ w : BitVec 64,
      exec .rdword s = .next (pushRsp 0x00#8 w { s with env := { s.env with spos := s.env.spos + 8 } }) ∧
      ∀ k : Nat, k < 8 → s.env.src[s.env.spos + (if s.cfg.wordBigEndian then 7 - k else k)]? =
        some (w.extractLsb' (8 * k) 8))

/-! ### Writer -/

/-- R140: the bit goes to WBUF[7 − WCNT], and the eighth bit emits the byte. -/
def Obligations.WrbitAppendsABit : Prop :=
  (∀ a : BitVec 8, a.extractLsb' 1 7 = 0#7 → decode (cmdWord 0x20#8 a 0#64) = .ok (.wrbit a)) ∧
  ∀ (a : BitVec 8) (s : State), s.blk.fault = false → ∃ w : BitVec 8,
    (∀ j : Nat, j < 8 →
      w.getLsbD j = if j = 7 - s.blk.wcnt.toNat then a.getLsbD 0 else s.blk.wbuf.getLsbD j) ∧
    (s.blk.wcnt = 7#3 → exec (.wrbit a) s = .next (pushRsp 0x00#8 0#64
      { s with blk := { s.blk with wbuf := 0x00#8, wcnt := 0#3 }, env := { s.env with snk := s.env.snk ++ [w] } })) ∧
    (s.blk.wcnt ≠ 7#3 → exec (.wrbit a) s = .next (pushRsp 0x00#8 0#64
      { s with blk := { s.blk with wbuf := w, wcnt := s.blk.wcnt + 1#3 } }))

/-- R141: D[7:0] goes to the sink, D[63:8] is ignored, the bit buffer is left alone. -/
def Obligations.WrbyteEmitsTheLowByte : Prop :=
  (∀ d : BitVec 64, decode (cmdWord 0x21#8 0#8 d) = .ok (.wrbyte d)) ∧
  ∀ (d : BitVec 64) (s : State), s.blk.fault = false →
    exec (.wrbyte d) s = .next (pushRsp 0x00#8 0#64
      { s with env := { s.env with snk := s.env.snk ++ [BitVec.ofNat 8 (d.toNat % 256)] } })

/-- R142, R69: the eight bytes of D go to the sink in the byte order of WORD_BIG_ENDIAN, the bit buffer is left alone. -/
def Obligations.WrwordEmitsEightBytes : Prop :=
  (∀ d : BitVec 64, decode (cmdWord 0x22#8 0#8 d) = .ok (.wrword d)) ∧
  ∀ (d : BitVec 64) (s : State), s.blk.fault = false → ∃ bytes : List Byte,
    exec (.wrword d) s = .next (pushRsp 0x00#8 0#64 { s with env := { s.env with snk := s.env.snk ++ bytes } }) ∧
    bytes.length = 8 ∧
    ∀ k : Nat, k < 8 → bytes[if s.cfg.wordBigEndian then 7 - k else k]? = some (d.extractLsb' (8 * k) 8)

/-- R143: FLUSH emits the pending bits as one byte, and flushes the sink whether or not any are pending. -/
def Obligations.FlushEmitsThePartialByte : Prop :=
  decode (cmdWord 0x23#8 0#8 0#64) = .ok .flush ∧
  ∀ s : State, s.blk.fault = false →
    (s.blk.wcnt = 0#3 → exec .flush s = .next (pushRsp 0x00#8 0#64
      { s with env := { s.env with snkfl := s.env.snkfl + 1 } })) ∧
    (s.blk.wcnt ≠ 0#3 → exec .flush s = .next (pushRsp 0x00#8 0#64
      { s with blk := { s.blk with wbuf := 0x00#8, wcnt := 0#3 },
               env := { s.env with snk := s.env.snk ++ [s.blk.wbuf], snkfl := s.env.snkfl + 1 } }))

/-! ### Frequency table -/

/-- R150. -/
def Obligations.CountAddsOne : Prop :=
  (∀ a : Sym, decode (cmdWord 0x30#8 a 0#64) = .ok (.count a)) ∧
  ∀ (a : Sym) (s : State), s.blk.fault = false →
    (s.blk.tvalid = true → exec (.count a) s = .next (pushRsp 0x23#8 0#64
      { s with blk := { s.blk with fault := true, cause := 0x23#8 } })) ∧
    (s.blk.tvalid = false → (readFreq s.blk a).toNat = 2 ^ 64 - 1 → exec (.count a) s = .next (pushRsp 0x22#8 0#64
      { s with blk := { s.blk with fault := true, cause := 0x22#8 } })) ∧
    (s.blk.tvalid = false → (readFreq s.blk a).toNat ≠ 2 ^ 64 - 1 → ∃ freq : Vector Count 256,
      exec (.count a) s = .next (pushRsp 0x00#8 0#64 { s with blk := { s.blk with freq := freq } }) ∧
      (freq[a.toNat]'a.isLt).toNat = (readFreq s.blk a).toNat + 1 ∧
      ∀ x : Sym, x ≠ a → freq[x.toNat]'x.isLt = readFreq s.blk x)

/-- R151. -/
def Obligations.SetfreqSetsTheCount : Prop :=
  (∀ (a : Sym) (d : Count), decode (cmdWord 0x31#8 a d) = .ok (.setfreq a d)) ∧
  ∀ (a : Sym) (d : Count) (s : State), s.blk.fault = false →
    (s.blk.tvalid = true → exec (.setfreq a d) s = .next (pushRsp 0x23#8 0#64
      { s with blk := { s.blk with fault := true, cause := 0x23#8 } })) ∧
    (s.blk.tvalid = false → ∃ freq : Vector Count 256,
      exec (.setfreq a d) s = .next (pushRsp 0x00#8 0#64 { s with blk := { s.blk with freq := freq } }) ∧
      freq[a.toNat]'a.isLt = d ∧ ∀ x : Sym, x ≠ a → freq[x.toNat]'x.isLt = readFreq s.blk x)

/-- R152, R177, R178: the three queries of the table and the tree answer and change nothing. -/
def Obligations.QueriesAnswerAndChangeNothing : Prop :=
  (∀ a : Sym, decode (cmdWord 0x32#8 a 0#64) = .ok (.getfreq a)) ∧
  decode (cmdWord 0x41#8 0#8 0#64) = .ok .getnleaf ∧
  decode (cmdWord 0x42#8 0#8 0#64) = .ok .gettotal ∧
  ∀ s : State, s.blk.fault = false →
    (∀ a : Sym, exec (.getfreq a) s = .next (pushRsp 0x00#8 (s.blk.freq[a.toNat]'a.isLt) s)) ∧
    exec .getnleaf s = .next (pushRsp 0x00#8 (BitVec.ofNat 64 s.blk.nleaf.toNat) s) ∧
    (s.blk.root = 511#9 → exec .gettotal s = .next (pushRsp 0x00#8 0#64 s)) ∧
    (s.blk.root ≠ 511#9 → exec .gettotal s = .next (pushRsp 0x00#8 (readNode s.blk s.blk.root).count s))

/-! ### BUILD -/

/-- R161: a BUILD with TVALID = 1 raises SEQUENCE and changes nothing else. -/
def Obligations.SecondBuildRaisesSequence : Prop :=
  decode (cmdWord 0x40#8 0#8 0#64) = .ok .build ∧
  ∀ s : State, s.blk.fault = false → s.blk.tvalid = true →
    exec .build s = .next (pushRsp 0x23#8 0#64 { s with blk := { s.blk with fault := true, cause := 0x23#8 } })

/-- R160, R170, and an inference of the spec in R171: a BUILD completes exactly when the sum of all FREQ[s] is at most 2^64 − 1; then TVALID = 1 and the
response is (OK, 0). Otherwise it raises COUNT_OVERFLOW with TVALID still 0 and ROOT unchanged. In both cases nothing but
the arena, NNODE, NLEAF, LEAF, ROOT, TVALID (and PQ) is written, FREQ in particular is not. -/
def Obligations.BuildCompletesExactlyWhenTheSumFits : Prop :=
  ∀ s : State, s.blk.fault = false → s.blk.tvalid = false →
    (totalFreq s.blk ≤ 2 ^ 64 - 1 → ∃ node nnode nleaf root leaf,
      exec .build s = .next (pushRsp 0x00#8 0#64
        { s with blk := { s.blk with node := node, nnode := nnode, nleaf := nleaf, root := root, leaf := leaf,
                                     tvalid := true },
                 tmp := { s.tmp with pq := [] } })) ∧
    (2 ^ 64 - 1 < totalFreq s.blk → ∃ node nnode nleaf leaf pq,
      exec .build s = .next (pushRsp 0x22#8 0#64
        { s with blk := { s.blk with node := node, nnode := nnode, nleaf := nleaf, leaf := leaf,
                                     fault := true, cause := 0x22#8 },
                 tmp := { s.tmp with pq := pq } }))

/-- R172, of which (e) to (i) are inferences of the spec: after a BUILD that returned OK the tree invariants hold, and they
hold until reset. -/
def Obligations.BuiltTreeIsWellFormedUntilReset : Prop :=
  (∀ s t : State, s.blk.fault = false → s.blk.tvalid = false → exec .build s = .next t → t.blk.tvalid = true →
    TreeOk t.blk) ∧
  (∀ (i : Instr) (s t : State), i ≠ .reset → s.blk.tvalid = true → TreeOk s.blk → exec i s = .next t →
    t.blk.tvalid = true ∧ TreeOk t.blk)

/-- R163, R164: PopMin removes the one member whose Key (count, sym, index) is less than that of every other member. -/
def Obligations.PopMinTakesTheLeastKey : Prop :=
  ∀ s : State, s.tmp.pq ≠ [] → s.tmp.pq.Nodup → ∃ m : NodeIdx,
    m ∈ s.tmp.pq ∧ (∀ j ∈ s.tmp.pq, j ≠ m → keyBefore s.blk m j ∧ ¬ keyBefore s.blk j m) ∧
    popMin s = some (m, { s with tmp := { s.tmp with pq := s.tmp.pq.erase m } })

/-- R165: the leaf phase puts one leaf for each symbol with a positive count at NODE[0 .. NLEAF−1] in ascending symbol
order, fills LEAF, and queues exactly those indices. -/
def Obligations.LeafPhaseMakesTheLeaves : Prop :=
  ∀ s : State, s.blk.nnode = 0#9 → s.tmp.pq = [] →
    let t := leafPhase s
    t.blk.nleaf = t.blk.nnode ∧
    t.blk.nleaf.toNat = (s.blk.freq.toList.filter (fun n => n ≠ 0#64)).length ∧
    (∀ a : Sym, readFreq s.blk a = 0#64 → readLeaf t.blk a = 511#9) ∧
    (∀ a : Sym, readFreq s.blk a ≠ 0#64 → (readLeaf t.blk a).toNat < t.blk.nleaf.toNat ∧
      readNode t.blk (readLeaf t.blk a) =
        { kind := .leaf, sym := a, count := readFreq s.blk a, c0 := 511#9, c1 := 511#9, par := 511#9 }) ∧
    (∀ a x : Sym, readFreq s.blk a ≠ 0#64 → readFreq s.blk x ≠ 0#64 → a.toNat < x.toNat →
      (readLeaf t.blk a).toNat < (readLeaf t.blk x).toNat) ∧
    t.tmp.pq.Nodup ∧ (∀ i : NodeIdx, i ∈ t.tmp.pq ↔ i.toNat < t.blk.nleaf.toNat)

/-- R167, R168, R173: in the tree that BUILD leaves, the leaves stand in ascending symbol order, and the two children of the
INTERNAL node at index i lie below i and have i as their parent; the "0" child has the least Key, and the "1" child the
least but one, among the nodes that existed and had no parent when it was made (those below i whose parent is not
below i). -/
def Obligations.BuildMergesTheTwoLeast : Prop :=
  ∀ s t : State, s.blk.fault = false → s.blk.tvalid = false → exec .build s = .next t → t.blk.tvalid = true →
    2 ≤ t.blk.nleaf.toNat →
    (∀ i j : NodeIdx, i.toNat < j.toNat → j.toNat < t.blk.nleaf.toNat →
      (readNode t.blk i).sym.toNat < (readNode t.blk j).sym.toNat) ∧
    ∀ i : NodeIdx, t.blk.nleaf.toNat ≤ i.toNat → i.toNat < t.blk.nnode.toNat →
      let a := (readNode t.blk i).c0
      let b := (readNode t.blk i).c1
      a.toNat < i.toNat ∧ (readNode t.blk a).par = i ∧ b.toNat < i.toNat ∧ (readNode t.blk b).par = i ∧
      keyBefore t.blk a b ∧
      ∀ j : NodeIdx, j.toNat < i.toNat → i.toNat ≤ (readNode t.blk j).par.toNat → j ≠ a → j ≠ b →
        keyBefore t.blk b j

/-- R174, an inference of the spec: the tree is a function of FREQ alone: two BUILDs of the same table, from any two states, end alike and leave the
same NNODE, NLEAF, LEAF, ROOT and the same entries below NNODE. -/
def Obligations.TreeIsAFunctionOfFreq : Prop :=
  ∀ s s' t t' : State, s.blk.fault = false → s'.blk.fault = false → s.blk.tvalid = false → s'.blk.tvalid = false →
    s.blk.freq = s'.blk.freq → exec .build s = .next t → exec .build s' = .next t' →
    t.blk.tvalid = t'.blk.tvalid ∧
    (t.blk.tvalid = true →
      t.blk.nnode = t'.blk.nnode ∧ t.blk.nleaf = t'.blk.nleaf ∧ t.blk.root = t'.blk.root ∧ t.blk.leaf = t'.blk.leaf ∧
      ∀ i : NodeIdx, i.toNat < t.blk.nnode.toNat → readNode t.blk i = readNode t'.blk i)

/-- R166: BUILD of the empty table completes with no node and no root; ENCODE and DECODE then raise NO_TREE, and GETTOTAL
returns 0. -/
def Obligations.EmptyTableBuildsNoTree : Prop :=
  ∀ s : State, s.blk.fault = false → s.blk.tvalid = false → (∀ a : Sym, readFreq s.blk a = 0#64) →
    ∃ t : State, exec .build s = .next t ∧ t.port.rsps = s.port.rsps ++ [⟨0x00#8, 0#64⟩] ∧
      t.blk.tvalid = true ∧ t.blk.nleaf = 0#9 ∧ t.blk.nnode = 0#9 ∧ t.blk.root = 511#9 ∧
      (∀ a : Sym, readLeaf t.blk a = 511#9) ∧
      (∀ a : Sym, exec (.encode a) t = .next (pushRsp 0x20#8 0#64
        { t with blk := { t.blk with fault := true, cause := 0x20#8 } })) ∧
      exec .decode t = .next (pushRsp 0x20#8 0#64 { t with blk := { t.blk with fault := true, cause := 0x20#8 } }) ∧
      exec .gettotal t = .next (pushRsp 0x00#8 0#64 t)

/-- R169: the tree of a table with one positive count is a synthetic root with the lone leaf as its "0" child and no "1"
child, and the symbol's code is the one bit 0. -/
def Obligations.OneSymbolTreeHasASyntheticRoot : Prop :=
  ∀ (s : State) (a : Sym), s.blk.fault = false → s.blk.tvalid = false → readFreq s.blk a ≠ 0#64 →
    (∀ x : Sym, x ≠ a → readFreq s.blk x = 0#64) →
    ∃ t : State, exec .build s = .next t ∧ t.blk.tvalid = true ∧ t.blk.nleaf = 1#9 ∧ t.blk.nnode = 2#9 ∧
      t.blk.root = 1#9 ∧ readLeaf t.blk a = 0#9 ∧
      readNode t.blk 0#9 =
        { kind := .leaf, sym := a, count := readFreq s.blk a, c0 := 511#9, c1 := 511#9, par := 1#9 } ∧
      readNode t.blk 1#9 =
        { kind := .internal, sym := 0#8, count := readFreq s.blk a, c0 := 0#9, c1 := 511#9, par := 511#9 } ∧
      code t.blk a = [false]

/-- R179, an inference of the spec: after a BUILD that returned OK, GETTOTAL's result is the sum of FREQ[s] over all s, not wrapped. -/
def Obligations.GettotalIsTheSumOfTheCounts : Prop :=
  ∀ s t : State, s.blk.fault = false → s.blk.tvalid = false → exec .build s = .next t → t.blk.tvalid = true →
    ∃ total : BitVec 64, exec .gettotal t = .next (pushRsp 0x00#8 total t) ∧ total.toNat = totalFreq s.blk

/-! ### Codes -/

/-- R191: Code(a) is the path from the root to the leaf of a. -/
def Obligations.CodeIsThePathFromTheRoot : Prop :=
  ∀ (b : Block) (a : Sym), TreeOk b → readLeaf b a ≠ 511#9 → followBits b b.root (code b a) = readLeaf b a

/-- An inference of the spec in R191: the codes of distinct symbols are prefix-free. -/
def Obligations.CodesArePrefixFree : Prop :=
  ∀ (b : Block) (a x : Sym), TreeOk b → readLeaf b a ≠ 511#9 → readLeaf b x ≠ 511#9 → a ≠ x →
    ¬ code b a <+: code b x

/-- R176, an inference of the spec: the code length is 1 when L = 1, between 1 and L − 1 when L ≥ 2, so at most 255. -/
def Obligations.CodeLengthIsBounded : Prop :=
  ∀ (b : Block) (a : Sym), TreeOk b → readLeaf b a ≠ 511#9 →
    1 ≤ (code b a).length ∧ (code b a).length ≤ 255 ∧
    (b.nleaf.toNat = 1 → (code b a).length = 1) ∧ (2 ≤ b.nleaf.toNat → (code b a).length ≤ b.nleaf.toNat - 1)

/-! ### ENCODE -/

/-- R190: with a tree and a leaf for the symbol, ENCODE answers (OK, |Code(a)|), leaves the writer and the sink as WRBIT of
each bit of Code(a) would, root to leaf, so that exactly these bits are appended to what was written, and changes nothing
else but CSTK and CLEN. -/
def Obligations.EncodeEmitsTheCode : Prop :=
  (∀ a : Sym, decode (cmdWord 0x50#8 a 0#64) = .ok (.encode a)) ∧
  ∀ (a : Sym) (s : State), s.blk.fault = false → s.blk.tvalid = true → TreeOk s.blk → readLeaf s.blk a ≠ 511#9 →
    ∃ wbuf wcnt snk cstk,
      exec (.encode a) s = .next (pushRsp 0x00#8 (BitVec.ofNat 64 (code s.blk a).length)
        { s with blk := { s.blk with wbuf := wbuf, wcnt := wcnt }, env := { s.env with snk := snk },
                 tmp := { s.tmp with cstk := cstk, clen := 0#8 } }) ∧
      wbuf = ((code s.blk a).foldl (fun u b => wrBit b u) s).blk.wbuf ∧
      wcnt = ((code s.blk a).foldl (fun u b => wrBit b u) s).blk.wcnt ∧
      snk = ((code s.blk a).foldl (fun u b => wrBit b u) s).env.snk ∧
      streamBits snk ++ (byteBits wbuf).take wcnt.toNat = bitsWritten s ++ code s.blk a

/-- R190, R193, R241, R245: NO_TREE and NO_LEAF, raised before any bit moves. -/
def Obligations.CodecFaultsTouchNoBit : Prop :=
  ∀ (a : Sym) (s : State), s.blk.fault = false →
    (s.blk.tvalid = false ∨ s.blk.root = 511#9 →
      exec (.encode a) s = .next (pushRsp 0x20#8 0#64
        { s with blk := { s.blk with fault := true, cause := 0x20#8 } }) ∧
      exec .decode s = .next (pushRsp 0x20#8 0#64
        { s with blk := { s.blk with fault := true, cause := 0x20#8 } })) ∧
    (s.blk.tvalid = true → s.blk.root ≠ 511#9 → readLeaf s.blk a = 511#9 →
      exec (.encode a) s = .next (pushRsp 0x21#8 0#64
        { s with blk := { s.blk with fault := true, cause := 0x21#8 } }))

/-- R192, an inference of the spec: ENCODE leaves WBUF, WCNT and SNK as the sequence WRBIT c₀; …; WRBIT c_{k−1} of its code bits does; and a series
of ENCODEs from WCNT = 0, followed by FLUSH, emits the codes one after the other, zero-padded to a whole number of
bytes. -/
def Obligations.EncodeIsASequenceOfWrbits : Prop :=
  (∀ (a : Sym) (s : State), s.blk.fault = false → s.blk.tvalid = true → TreeOk s.blk → readLeaf s.blk a ≠ 511#9 →
    ∃ t u, exec (.encode a) s = .next t ∧
      execAll ((code s.blk a).map fun b => .wrbit (if b then 1#8 else 0#8)) s = .next u ∧
      t.blk.wbuf = u.blk.wbuf ∧ t.blk.wcnt = u.blk.wcnt ∧ t.env.snk = u.env.snk) ∧
  (∀ (syms : List Sym) (s : State), Inv s → s.blk.fault = false → s.blk.tvalid = true → s.blk.wcnt = 0#3 →
    (∀ a ∈ syms, readLeaf s.blk a ≠ 511#9) →
    ∃ t payload pad, execAll (syms.map (fun a => .encode a) ++ [.flush]) s = .next t ∧
      t.env.snk = s.env.snk ++ payload ∧ pad < 8 ∧
      streamBits payload = syms.flatMap (code s.blk) ++ List.replicate pad false)

/-! ### DECODE -/

/-- R193, R194, R242, in the bits the reader will deliver: DECODE answers EOD and consumes nothing when there are none,
the symbol whose code they begin with, of which it consumes exactly the code, and otherwise MALFORMED_BITSTREAM, with the
bits it read consumed. It changes nothing but the reader, the source position, FAULT, CAUSE, CUR and DLEN. -/
def Obligations.DecodeReadsOneCode : Prop :=
  decode (cmdWord 0x51#8 0#8 0#64) = .ok .decode ∧
  ∀ s : State, s.blk.fault = false → s.blk.tvalid = true → TreeOk s.blk → s.blk.root ≠ 511#9 →
    s.blk.rcnt.toNat ≤ 8 → ∃ st rd rbuf rcnt fault cause spos cur dlen,
      let t : State := pushRsp st rd
        { s with blk := { s.blk with rbuf := rbuf, rcnt := rcnt, fault := fault, cause := cause },
                 env := { s.env with spos := spos }, tmp := { s.tmp with cur := cur, dlen := dlen } }
      exec .decode s = .next t ∧
      (bitsToRead s = [] →
        st = 0x01#8 ∧ rd = 0#64 ∧ rbuf = s.blk.rbuf ∧ rcnt = s.blk.rcnt ∧ spos = s.env.spos ∧
        fault = false ∧ cause = s.blk.cause) ∧
      (∀ (a : Sym) (rest : List Bool), readLeaf s.blk a ≠ 511#9 → bitsToRead s = code s.blk a ++ rest →
        st = 0x00#8 ∧ rd = BitVec.ofNat 64 a.toNat ∧ bitsToRead t = rest ∧ fault = false ∧ cause = s.blk.cause) ∧
      (bitsToRead s ≠ [] → (∀ a : Sym, readLeaf s.blk a ≠ 511#9 → ¬ code s.blk a <+: bitsToRead s) →
        st = 0x12#8 ∧ rd = 0#64 ∧ fault = true ∧ cause = 0x12#8 ∧
        bitsToRead t = if s.blk.nleaf = 1#9 then (bitsToRead s).tail else [])

/-- R194, an inference of the spec: when the bits the reader will deliver begin with the codes of some symbols, one after
the other, that many DECODEs return these symbols in order and consume exactly their codes. -/
def Obligations.DecodesInvertEncodes : Prop :=
  ∀ (syms : List Sym) (rest : List Bool) (s : State), s.blk.fault = false → s.blk.tvalid = true → TreeOk s.blk →
    s.blk.rcnt.toNat ≤ 8 → (∀ a ∈ syms, readLeaf s.blk a ≠ 511#9) →
    bitsToRead s = syms.flatMap (code s.blk) ++ rest →
    ∃ u : State, execAll (List.replicate syms.length .decode) s = .next u ∧ bitsToRead u = rest ∧
      u.port.rsps = s.port.rsps ++ syms.map fun a => ⟨0x00#8, BitVec.ofNat 64 a.toNat⟩

/-! ### Streams -/

/-- R78, an inference of the spec: bit i written is bit i read, then the padding zeros, then EOD. -/
def Obligations.BitWrittenIsBitRead : Prop :=
  ∀ (bits : List Bool) (s : State), Inv s → s.blk.fault = false → s.blk.wcnt = 0#3 →
    ∃ (t : State) (p : List Byte),
      execAll (bits.map (fun b => .wrbit (if b then 1#8 else 0#8)) ++ [.flush]) s = .next t ∧
      t.env.snk = s.env.snk ++ p ∧ p.length = (bits.length + 7) / 8 ∧
      ∀ (r : State) (n : Nat), r.blk.fault = false → r.blk.rcnt = 0#4 → r.env.src.drop r.env.spos = p →
        ∃ u : State, execAll (List.replicate n .rdbit) r = .next u ∧
          u.port.rsps = r.port.rsps ++ (List.range n).map fun i =>
            if i < bits.length then ⟨0x00#8, if bits.getD i false then 1#64 else 0#64⟩
            else if i < 8 * ((bits.length + 7) / 8) then ⟨0x00#8, 0#64⟩ else ⟨0x01#8, 0#64⟩

/-- R69: BytesToWord(WordToBytes(n)) = n for every n and either setting of WORD_BIG_ENDIAN, through the sink and the
source: what WRWORD emits, RDWORD reads back. -/
def Obligations.WordWrittenIsWordRead : Prop :=
  (∀ (big : Bool) (n : BitVec 64), bytesToWord big (wordToBytes big n) = n) ∧
  ∀ (n : BitVec 64) (s r : State) (rest : List Byte), s.blk.fault = false → r.blk.fault = false → r.cfg = s.cfg →
    ∃ (t : State) (p : List Byte), exec (.wrword n) s = .next t ∧ t.env.snk = s.env.snk ++ p ∧
      (r.env.src.drop r.env.spos = p ++ rest → exec .rdword r = .next (pushRsp 0x00#8 n
        { r with env := { r.env with spos := r.env.spos + 8 } }))

/-! ### Every command -/

/-- R93, R94, R102: each accepted word, legal or not, gives exactly one response, with one of the ten values of ST, and
with RD = 0 whenever ST ≠ OK. -/
def Obligations.OneResponsePerCommand : Prop :=
  ∀ (cw : CmdWord) (s t : State), acceptCommand cw s = .next t → ∃ r : Response,
    t.port = { s.port with rsps := s.port.rsps ++ [r] } ∧
    r.st ∈ [0x00#8, 0x01#8, 0x02#8, 0x10#8, 0x12#8, 0x20#8, 0x21#8, 0x22#8, 0x23#8, 0x2F#8] ∧
    (r.st ≠ 0x00#8 → r.rd = 0#64)

/-- R240, R246: a command ends in one of four ways: OK; EOD, with nothing changed; FAULTED, with nothing changed, of a
faulted block; or a fault, of a block that was not faulted, with FAULT = 1 and CAUSE = ST. -/
def Obligations.CommandEndsInOneOfFourWays : Prop :=
  ∀ (cw : CmdWord) (s t : State), acceptCommand cw s = .next t → ∃ r : Response,
    t.port.rsps = s.port.rsps ++ [r] ∧
    ((r.st = 0x00#8 ∧ (t.blk.fault = true → s.blk.fault = true)) ∨
     (r.st = 0x01#8 ∧ t.blk = s.blk ∧ t.env = s.env ∧ s.blk.fault = false) ∨
     (r.st = 0x02#8 ∧ t.blk = s.blk ∧ t.env = s.env ∧ s.blk.fault = true) ∨
     (0x10 ≤ r.st.toNat ∧ s.blk.fault = false ∧ t.blk.fault = true ∧ t.blk.cause = r.st))

/-- R242, an inference of the spec: EOD is returned by, and only by, the four commands listed, when they meet RCNT = 0 (the bit readers) and an
exhausted source; nothing changes, and the same command repeated gives EOD again. -/
def Obligations.EodExactlyAtTheEndOfData : Prop :=
  ∀ (i : Instr) (s t : State), s.blk.fault = false → exec i s = .next t →
    (t.port.rsps = s.port.rsps ++ [⟨0x01#8, 0#64⟩] ↔
      s.env.src.length ≤ s.env.spos ∧
        ((i = .rdbit ∧ s.blk.rcnt = 0#4) ∨ i = .rdbyte ∨ i = .rdword ∨
         (i = .decode ∧ s.blk.tvalid = true ∧ s.blk.root ≠ 511#9 ∧ s.blk.rcnt = 0#4))) ∧
    (t.port.rsps = s.port.rsps ++ [⟨0x01#8, 0#64⟩] → t.blk = s.blk ∧ t.env = s.env ∧
      ∃ u : State, exec i t = .next u ∧ u.blk = s.blk ∧ u.env = s.env ∧
        u.port.rsps = t.port.rsps ++ [⟨0x01#8, 0#64⟩])

/-- R24, R26, R247, and R248, an inference of the spec: once FAULT = 1, FAULT and CAUSE keep their values until RESET, which clears both. -/
def Obligations.FaultAndCauseHoldUntilReset : Prop :=
  ∀ (cw : CmdWord) (s t : State), s.blk.fault = true → acceptCommand cw s = .next t →
    (decode cw ≠ .ok .reset → t.blk.fault = true ∧ t.blk.cause = s.blk.cause) ∧
    (decode cw = .ok .reset → t.blk.fault = false ∧ t.blk.cause = 0x00#8)

/-- R25, R31, R170: while TVALID = 1 no command but RESET writes FREQ or the tree, or clears TVALID. -/
def Obligations.TableAndTreeAreFrozenAfterBuild : Prop :=
  ∀ (cw : CmdWord) (s t : State), s.blk.tvalid = true → decode cw ≠ .ok .reset → acceptCommand cw s = .next t →
    t.blk.tvalid = true ∧ t.blk.freq = s.blk.freq ∧ t.blk.node = s.blk.node ∧ t.blk.nnode = s.blk.nnode ∧
    t.blk.nleaf = s.blk.nleaf ∧ t.blk.root = s.blk.root ∧ t.blk.leaf = s.blk.leaf

/-- The frame of every command (R25 to R37, R41, R45): each register, table and stream is changed only by the commands
its rule names. -/
def Obligations.EachRegisterHasItsWriters : Prop :=
  ∀ (i : Instr) (s t : State), exec i s = .next t →
    (i ≠ .rdbit → i ≠ .decode → i ≠ .reset → t.blk.rbuf = s.blk.rbuf ∧ t.blk.rcnt = s.blk.rcnt) ∧
    ((∀ a, i ≠ .wrbit a) → (∀ a, i ≠ .encode a) → i ≠ .flush → i ≠ .reset →
      t.blk.wbuf = s.blk.wbuf ∧ t.blk.wcnt = s.blk.wcnt) ∧
    ((∀ a, i ≠ .count a) → (∀ a d, i ≠ .setfreq a d) → i ≠ .reset → t.blk.freq = s.blk.freq) ∧
    (i ≠ .build → i ≠ .reset → t.blk.tvalid = s.blk.tvalid ∧ t.blk.nnode = s.blk.nnode ∧
      t.blk.nleaf = s.blk.nleaf ∧ t.blk.root = s.blk.root ∧ t.blk.leaf = s.blk.leaf) ∧
    (i ≠ .build → t.blk.node = s.blk.node) ∧
    (i ≠ .rdbit → i ≠ .rdbyte → i ≠ .rdword → i ≠ .decode → t.env.spos = s.env.spos) ∧
    ((∀ a, i ≠ .wrbit a) → (∀ d, i ≠ .wrbyte d) → (∀ d, i ≠ .wrword d) → (∀ a, i ≠ .encode a) → i ≠ .flush →
      t.env.snk = s.env.snk) ∧
    (i ≠ .flush → t.env.snkfl = s.env.snkfl) ∧
    t.env.src = s.env.src ∧ t.cfg = s.cfg ∧ t.port.inputs = s.port.inputs

/-- R61, R63, R73, R75: no command writes the source or goes back in it, and the sink only grows. -/
def Obligations.SinkGrowsAndSourceAdvances : Prop :=
  ∀ (cw : CmdWord) (s t : State), s.env.spos ≤ s.env.src.length → acceptCommand cw s = .next t →
    t.env.src = s.env.src ∧ s.env.spos ≤ t.env.spos ∧ t.env.spos ≤ t.env.src.length ∧ s.env.snk <+: t.env.snk ∧
    s.env.snkfl ≤ t.env.snkfl

/-! ### Reset -/

/-- R43, R270, R271, R272: the reset values after State.reset, after the RESET command and after the pin, from any state;
the environment is not changed by either (of State.reset's environment nothing is said: log 7). -/
def Obligations.ResetGivesTheResetState : Prop :=
  let atReset (b : Block) : Prop :=
    b.fault = false ∧ b.tvalid = false ∧ b.cause = 0x00#8 ∧ b.rbuf = 0x00#8 ∧ b.rcnt = 0#4 ∧ b.wbuf = 0x00#8 ∧
    b.wcnt = 0#3 ∧ (∀ a : Sym, readFreq b a = 0#64) ∧ b.nnode = 0#9 ∧ b.nleaf = 0#9 ∧ b.root = 511#9 ∧
    (∀ a : Sym, readLeaf b a = 511#9)
  atReset State.reset.blk ∧ State.reset.tmp.pq = [] ∧
  (∀ s : State, ∃ t : State, exec .reset s = .next t ∧ atReset t.blk ∧ t.tmp.pq = [] ∧ t.env = s.env) ∧
  (∀ (s : State) (rest : List HostInput), s.port.inputs = .pinReset :: rest →
    ∃ t : State, step s = .next t ∧ atReset t.blk ∧ t.tmp.pq = [] ∧ t.env = s.env ∧ t.port.rsps = s.port.rsps)

/-- R270: a pin reset during a command abandons it without a response; the block is at its reset values, and the
environment stands somewhere between what it was and what the command would have made of it (how far is open: U25,
log 13). -/
def Obligations.PinResetAbandonsTheCommand : Prop :=
  ∀ (s u : State) (cw : CmdWord) (made : Nat) (rest : List HostInput),
    s.port.inputs = .pinResetDuring cw made :: rest → s.env.spos ≤ s.env.src.length →
    acceptCommand cw { s with port := { s.port with inputs := rest } } = .next u →
    ∃ t : State, step s = .next t ∧ t.blk = { Block.reset with node := t.blk.node } ∧
      t.port = { s.port with inputs := rest } ∧ t.env.src = s.env.src ∧
      s.env.spos ≤ t.env.spos ∧ t.env.spos ≤ u.env.spos ∧ s.env.snk <+: t.env.snk ∧ t.env.snk <+: u.env.snk ∧
      s.env.snkfl ≤ t.env.snkfl ∧ t.env.snkfl ≤ u.env.snkfl

/-! ### The invariant -/

/-- The invariant holds after reset, under either value of WORD_BIG_ENDIAN. -/
def Obligations.InvariantHoldsAtReset : Prop := Inv State.reset ∧ ∀ p : Config, Inv (State.resetUnder p)

/-- R25, R26, R28, R29, R36, R41, R172: every step keeps the invariant, whatever the host's input is. -/
def Obligations.StepKeepsTheInvariant : Prop :=
  ∀ s t : State, Inv s → step s = .next t → Inv t

/-- R175, R176, R190 (c), R193 (e): from every state that meets the invariant the next step answers a next state: the
encoder's stack never overflows and no DECODE reads a 256th bit. -/
def Obligations.InvariantMeansNoStepStops : Prop :=
  ∀ s : State, Inv s → ∃ t : State, step s = .next t

/-! ### The host's sequences -/

/-- R223, an inference of the spec: for every byte sequence shorter than 2^64, compress succeeds, decompress of its output
under the same WORD_BIG_ENDIAN succeeds, and gives it back; for the empty sequence both outputs are empty. -/
def Obligations.DecompressInvertsCompress : Prop :=
  ∀ (input : List Byte) (s s' : State), input.length < 2 ^ 64 → s'.cfg = s.cfg →
    ∃ t t' : State, compressJob input s = .next (.success, t) ∧
      decompressJob t.env.snk s' = .next (.success, t') ∧ t'.env.snk = input ∧ (input = [] → t.env.snk = [])

/-- R224, an inference of the spec: what compress emits is a function of the input and WORD_BIG_ENDIAN alone. -/
def Obligations.CompressOutputIsAFunctionOfTheInput : Prop :=
  ∀ (input : List Byte) (s s' t : State) (r : HostResult), s'.cfg = s.cfg → compressJob input s = .next (r, t) →
    ∃ t' : State, compressJob input s' = .next (r, t') ∧ t'.env.snk = t.env.snk

/-- R210, R212, R213, R214, and R215, an inference of the spec: the layout of the compressed stream of a non-empty
input. -/
def Obligations.CompressedStreamLayout : Prop :=
  ∀ (input : List Byte) (s : State), input ≠ [] → input.length < 2 ^ 64 →
    let syms := ((List.range 256).map (BitVec.ofNat 8)).filter (· ∈ input)
    ∃ (t : State) (payload : List Byte) (pad : Nat), compressJob input s = .next (.success, t) ∧
      t.env.snk = [BitVec.ofNat 8 (syms.length - 1)] ++ syms ++
        syms.flatMap (fun a => wordToBytes s.cfg.wordBigEndian (BitVec.ofNat 64 (input.count a))) ++ payload ∧
      pad < 8 ∧ streamBits payload = input.flatMap (code t.blk) ++ List.replicate pad false

/-- R211: the empty input compresses to the empty stream, the empty stream decompresses to the empty output, and it is the
only stream shorter than 11 bytes that decompresses successfully (an inference of the spec). -/
def Obligations.EmptyStreamIsTheOnlyShortStream : Prop :=
  ∀ s : State,
    (∃ t : State, compressJob [] s = .next (.success, t) ∧ t.env.snk = []) ∧
    (∃ t : State, decompressJob [] s = .next (.success, t) ∧ t.env.snk = []) ∧
    (∀ (input : List Byte) (t : State), input.length < 11 → decompressJob input s = .next (.success, t) → input = [])

/-- R221: after a failed sequence the sink is empty and the block has been reset. -/
def Obligations.FailedSequenceLeavesNoOutput : Prop :=
  ∀ (input : List Byte) (s t : State) (c : BitVec 8),
    compressJob input s = .next (.failure c, t) ∨ decompressJob input s = .next (.failure c, t) →
    t.env.snk = [] ∧ t.blk = { Block.reset with node := t.blk.node }

/-- R100, R101: the assembler puts each operand in its field and rejects `WRBYTE b` with b > 255; the pseudo-commands expand
to WRBITs, to RDBITs and to the host's rewind. That every other operand which does not fit its field is rejected as well
is the model's reading of R100 (log 20). -/
def Obligations.WrittenFormsAssemble : Prop :=
  (assemble .nop = some [.command (cmdWord 0x00#8 0#8 0#64)] ∧
    assemble .reset = some [.command (cmdWord 0x01#8 0#8 0#64)] ∧
    assemble .rdstat = some [.command (cmdWord 0x02#8 0#8 0#64)] ∧
    assemble .rdbit = some [.command (cmdWord 0x10#8 0#8 0#64)] ∧
    assemble .rdbyte = some [.command (cmdWord 0x11#8 0#8 0#64)] ∧
    assemble .rdword = some [.command (cmdWord 0x12#8 0#8 0#64)] ∧
    assemble .flush = some [.command (cmdWord 0x23#8 0#8 0#64)] ∧
    assemble .build = some [.command (cmdWord 0x40#8 0#8 0#64)] ∧
    assemble .getnleaf = some [.command (cmdWord 0x41#8 0#8 0#64)] ∧
    assemble .gettotal = some [.command (cmdWord 0x42#8 0#8 0#64)] ∧
    assemble .decode = some [.command (cmdWord 0x51#8 0#8 0#64)]) ∧
  (∀ b : Nat, assemble (.wrbyte b) =
    if b ≤ 255 then some [.command (cmdWord 0x21#8 0#8 (BitVec.ofNat 64 b))] else none) ∧
  (∀ b : Nat, assemble (.wrbit b) =
    if b ≤ 1 then some [.command (cmdWord 0x20#8 (BitVec.ofNat 8 b) 0#64)] else none) ∧
  (∀ n : Nat, assemble (.wrword n) =
    if n < 2 ^ 64 then some [.command (cmdWord 0x22#8 0#8 (BitVec.ofNat 64 n))] else none) ∧
  (∀ a : Nat, assemble (.count a) =
    if a ≤ 255 then some [.command (cmdWord 0x30#8 (BitVec.ofNat 8 a) 0#64)] else none) ∧
  (∀ a n : Nat, assemble (.setfreq a n) =
    if a ≤ 255 ∧ n < 2 ^ 64 then some [.command (cmdWord 0x31#8 (BitVec.ofNat 8 a) (BitVec.ofNat 64 n))] else none) ∧
  (∀ a : Nat, assemble (.getfreq a) =
    if a ≤ 255 then some [.command (cmdWord 0x32#8 (BitVec.ofNat 8 a) 0#64)] else none) ∧
  (∀ a : Nat, assemble (.encode a) =
    if a ≤ 255 then some [.command (cmdWord 0x50#8 (BitVec.ofNat 8 a) 0#64)] else none) ∧
  (∀ bits : List Bool, assemble (.wrbits bits) =
    some (bits.map fun b => .command (cmdWord 0x20#8 (if b then 1#8 else 0#8) 0#64))) ∧
  (∀ k : Nat, assemble (.rdbits k) = some (List.replicate k (.command (cmdWord 0x10#8 0#8 0#64)))) ∧
  assemble .hostRewind = some [.rewind]

/-! ### The step function with its arguments -/

/-- R8, R44: what accepting a command word does is the function `transact` of the parameters, the content of the source,
the command word and the state proper, whose output is the next state and one response. So no command reads the pending
inputs or the earlier responses, and none changes the parameters or the content of the source. -/
def Obligations.AcceptingIsTheStepFunctionOfItsArguments : Prop :=
  ∀ (cw : CmdWord) (s : State), acceptCommand cw s =
    match transact s.cfg s.env.src cw s.system with
    | .next (x, r) => .next (State.around s.cfg s.env.src { s.port with rsps := s.port.rsps ++ [r] } x)
    | .fault f => .fault f
    | .refused r => .refused r
end

