-- ==== Sys2Proof/Laws/State.lean ====
section
/-! SUPPORT. What each update of the state does to each field, one lemma per field, all by `rfl`, and what it does to the
three readers of the tables. No later proof unfolds a record update. -/

namespace Sys2Proof.Machine

variable (s : State)

@[simp] theorem pushRsp_blk (st : BitVec 8) (rd : BitVec 64) : (pushRsp st rd s).blk = s.blk := rfl
@[simp] theorem pushRsp_tmp (st : BitVec 8) (rd : BitVec 64) : (pushRsp st rd s).tmp = s.tmp := rfl
@[simp] theorem pushRsp_env (st : BitVec 8) (rd : BitVec 64) : (pushRsp st rd s).env = s.env := rfl
@[simp] theorem pushRsp_cfg (st : BitVec 8) (rd : BitVec 64) : (pushRsp st rd s).cfg = s.cfg := rfl
@[simp] theorem pushRsp_inputs (st : BitVec 8) (rd : BitVec 64) : (pushRsp st rd s).port.inputs = s.port.inputs := rfl
@[simp] theorem pushRsp_rsps (st : BitVec 8) (rd : BitVec 64) : (pushRsp st rd s).port.rsps = s.port.rsps ++ [{ st := st, rd := rd }] := rfl

@[simp] theorem enterFault_fault (c : Cause) : (enterFault c s).blk.fault = true := rfl
@[simp] theorem enterFault_tvalid (c : Cause) : (enterFault c s).blk.tvalid = s.blk.tvalid := rfl
@[simp] theorem enterFault_cause (c : Cause) : (enterFault c s).blk.cause = c.code := rfl
@[simp] theorem enterFault_rbuf (c : Cause) : (enterFault c s).blk.rbuf = s.blk.rbuf := rfl
@[simp] theorem enterFault_rcnt (c : Cause) : (enterFault c s).blk.rcnt = s.blk.rcnt := rfl
@[simp] theorem enterFault_wbuf (c : Cause) : (enterFault c s).blk.wbuf = s.blk.wbuf := rfl
@[simp] theorem enterFault_wcnt (c : Cause) : (enterFault c s).blk.wcnt = s.blk.wcnt := rfl
@[simp] theorem enterFault_freq (c : Cause) : (enterFault c s).blk.freq = s.blk.freq := rfl
@[simp] theorem enterFault_node (c : Cause) : (enterFault c s).blk.node = s.blk.node := rfl
@[simp] theorem enterFault_nnode (c : Cause) : (enterFault c s).blk.nnode = s.blk.nnode := rfl
@[simp] theorem enterFault_nleaf (c : Cause) : (enterFault c s).blk.nleaf = s.blk.nleaf := rfl
@[simp] theorem enterFault_root (c : Cause) : (enterFault c s).blk.root = s.blk.root := rfl
@[simp] theorem enterFault_leaf (c : Cause) : (enterFault c s).blk.leaf = s.blk.leaf := rfl
@[simp] theorem enterFault_tmp (c : Cause) : (enterFault c s).tmp = s.tmp := rfl
@[simp] theorem enterFault_env (c : Cause) : (enterFault c s).env = s.env := rfl
@[simp] theorem enterFault_cfg (c : Cause) : (enterFault c s).cfg = s.cfg := rfl
@[simp] theorem enterFault_port (c : Cause) : (enterFault c s).port = s.port := rfl
@[simp] theorem enterFault_readFreq (c : Cause) (x : Sym) : readFreq (enterFault c s).blk x = readFreq s.blk x := rfl
@[simp] theorem enterFault_readLeaf (c : Cause) (x : Sym) : readLeaf (enterFault c s).blk x = readLeaf s.blk x := rfl
@[simp] theorem enterFault_readNode (c : Cause) (x : NodeIdx) : readNode (enterFault c s).blk x = readNode s.blk x := rfl

@[simp] theorem resetBlock_fault : (resetBlock s).blk.fault = Block.reset.fault := rfl
@[simp] theorem resetBlock_tvalid : (resetBlock s).blk.tvalid = Block.reset.tvalid := rfl
@[simp] theorem resetBlock_cause : (resetBlock s).blk.cause = Block.reset.cause := rfl
@[simp] theorem resetBlock_rbuf : (resetBlock s).blk.rbuf = Block.reset.rbuf := rfl
@[simp] theorem resetBlock_rcnt : (resetBlock s).blk.rcnt = Block.reset.rcnt := rfl
@[simp] theorem resetBlock_wbuf : (resetBlock s).blk.wbuf = Block.reset.wbuf := rfl
@[simp] theorem resetBlock_wcnt : (resetBlock s).blk.wcnt = Block.reset.wcnt := rfl
@[simp] theorem resetBlock_freq : (resetBlock s).blk.freq = Block.reset.freq := rfl
@[simp] theorem resetBlock_node : (resetBlock s).blk.node = s.blk.node := rfl
@[simp] theorem resetBlock_nnode : (resetBlock s).blk.nnode = Block.reset.nnode := rfl
@[simp] theorem resetBlock_nleaf : (resetBlock s).blk.nleaf = Block.reset.nleaf := rfl
@[simp] theorem resetBlock_root : (resetBlock s).blk.root = Block.reset.root := rfl
@[simp] theorem resetBlock_leaf : (resetBlock s).blk.leaf = Block.reset.leaf := rfl
@[simp] theorem resetBlock_pq : (resetBlock s).tmp.pq = [] := rfl
@[simp] theorem resetBlock_cstk : (resetBlock s).tmp.cstk = s.tmp.cstk := rfl
@[simp] theorem resetBlock_clen : (resetBlock s).tmp.clen = s.tmp.clen := rfl
@[simp] theorem resetBlock_cur : (resetBlock s).tmp.cur = s.tmp.cur := rfl
@[simp] theorem resetBlock_dlen : (resetBlock s).tmp.dlen = s.tmp.dlen := rfl
@[simp] theorem resetBlock_env : (resetBlock s).env = s.env := rfl
@[simp] theorem resetBlock_cfg : (resetBlock s).cfg = s.cfg := rfl
@[simp] theorem resetBlock_port : (resetBlock s).port = s.port := rfl

@[simp] theorem srcDrain_blk : (srcDrain s).blk = s.blk := rfl
@[simp] theorem srcDrain_tmp : (srcDrain s).tmp = s.tmp := rfl
@[simp] theorem srcDrain_src : (srcDrain s).env.src = s.env.src := rfl
@[simp] theorem srcDrain_spos : (srcDrain s).env.spos = s.env.src.length := rfl
@[simp] theorem srcDrain_snk : (srcDrain s).env.snk = s.env.snk := rfl
@[simp] theorem srcDrain_snkfl : (srcDrain s).env.snkfl = s.env.snkfl := rfl
@[simp] theorem srcDrain_cfg : (srcDrain s).cfg = s.cfg := rfl
@[simp] theorem srcDrain_port : (srcDrain s).port = s.port := rfl

@[simp] theorem snkPut_blk (b : Byte) : (snkPut b s).blk = s.blk := rfl
@[simp] theorem snkPut_tmp (b : Byte) : (snkPut b s).tmp = s.tmp := rfl
@[simp] theorem snkPut_src (b : Byte) : (snkPut b s).env.src = s.env.src := rfl
@[simp] theorem snkPut_spos (b : Byte) : (snkPut b s).env.spos = s.env.spos := rfl
@[simp] theorem snkPut_snk (b : Byte) : (snkPut b s).env.snk = s.env.snk ++ [b] := rfl
@[simp] theorem snkPut_snkfl (b : Byte) : (snkPut b s).env.snkfl = s.env.snkfl := rfl
@[simp] theorem snkPut_cfg (b : Byte) : (snkPut b s).cfg = s.cfg := rfl
@[simp] theorem snkPut_port (b : Byte) : (snkPut b s).port = s.port := rfl

@[simp] theorem snkFlush_blk : (snkFlush s).blk = s.blk := rfl
@[simp] theorem snkFlush_tmp : (snkFlush s).tmp = s.tmp := rfl
@[simp] theorem snkFlush_src : (snkFlush s).env.src = s.env.src := rfl
@[simp] theorem snkFlush_spos : (snkFlush s).env.spos = s.env.spos := rfl
@[simp] theorem snkFlush_snk : (snkFlush s).env.snk = s.env.snk := rfl
@[simp] theorem snkFlush_snkfl : (snkFlush s).env.snkfl = s.env.snkfl + 1 := rfl
@[simp] theorem snkFlush_cfg : (snkFlush s).cfg = s.cfg := rfl
@[simp] theorem snkFlush_port : (snkFlush s).port = s.port := rfl

@[simp] theorem refill_fault (b : Byte) : (refill b s).blk.fault = s.blk.fault := rfl
@[simp] theorem refill_tvalid (b : Byte) : (refill b s).blk.tvalid = s.blk.tvalid := rfl
@[simp] theorem refill_cause (b : Byte) : (refill b s).blk.cause = s.blk.cause := rfl
@[simp] theorem refill_rbuf (b : Byte) : (refill b s).blk.rbuf = b := rfl
@[simp] theorem refill_rcnt (b : Byte) : (refill b s).blk.rcnt = 8#4 := rfl
@[simp] theorem refill_wbuf (b : Byte) : (refill b s).blk.wbuf = s.blk.wbuf := rfl
@[simp] theorem refill_wcnt (b : Byte) : (refill b s).blk.wcnt = s.blk.wcnt := rfl
@[simp] theorem refill_freq (b : Byte) : (refill b s).blk.freq = s.blk.freq := rfl
@[simp] theorem refill_node (b : Byte) : (refill b s).blk.node = s.blk.node := rfl
@[simp] theorem refill_nnode (b : Byte) : (refill b s).blk.nnode = s.blk.nnode := rfl
@[simp] theorem refill_nleaf (b : Byte) : (refill b s).blk.nleaf = s.blk.nleaf := rfl
@[simp] theorem refill_root (b : Byte) : (refill b s).blk.root = s.blk.root := rfl
@[simp] theorem refill_leaf (b : Byte) : (refill b s).blk.leaf = s.blk.leaf := rfl
@[simp] theorem refill_tmp (b : Byte) : (refill b s).tmp = s.tmp := rfl
@[simp] theorem refill_env (b : Byte) : (refill b s).env = s.env := rfl
@[simp] theorem refill_cfg (b : Byte) : (refill b s).cfg = s.cfg := rfl
@[simp] theorem refill_port (b : Byte) : (refill b s).port = s.port := rfl
@[simp] theorem refill_readFreq (b : Byte) (x : Sym) : readFreq (refill b s).blk x = readFreq s.blk x := rfl
@[simp] theorem refill_readLeaf (b : Byte) (x : Sym) : readLeaf (refill b s).blk x = readLeaf s.blk x := rfl
@[simp] theorem refill_readNode (b : Byte) (x : NodeIdx) : readNode (refill b s).blk x = readNode s.blk x := rfl

@[simp] theorem setWriter_fault (w : BitVec 8) (n : BitVec 3) : (setWriter w n s).blk.fault = s.blk.fault := rfl
@[simp] theorem setWriter_tvalid (w : BitVec 8) (n : BitVec 3) : (setWriter w n s).blk.tvalid = s.blk.tvalid := rfl
@[simp] theorem setWriter_cause (w : BitVec 8) (n : BitVec 3) : (setWriter w n s).blk.cause = s.blk.cause := rfl
@[simp] theorem setWriter_rbuf (w : BitVec 8) (n : BitVec 3) : (setWriter w n s).blk.rbuf = s.blk.rbuf := rfl
@[simp] theorem setWriter_rcnt (w : BitVec 8) (n : BitVec 3) : (setWriter w n s).blk.rcnt = s.blk.rcnt := rfl
@[simp] theorem setWriter_wbuf (w : BitVec 8) (n : BitVec 3) : (setWriter w n s).blk.wbuf = w := rfl
@[simp] theorem setWriter_wcnt (w : BitVec 8) (n : BitVec 3) : (setWriter w n s).blk.wcnt = n := rfl
@[simp] theorem setWriter_freq (w : BitVec 8) (n : BitVec 3) : (setWriter w n s).blk.freq = s.blk.freq := rfl
@[simp] theorem setWriter_node (w : BitVec 8) (n : BitVec 3) : (setWriter w n s).blk.node = s.blk.node := rfl
@[simp] theorem setWriter_nnode (w : BitVec 8) (n : BitVec 3) : (setWriter w n s).blk.nnode = s.blk.nnode := rfl
@[simp] theorem setWriter_nleaf (w : BitVec 8) (n : BitVec 3) : (setWriter w n s).blk.nleaf = s.blk.nleaf := rfl
@[simp] theorem setWriter_root (w : BitVec 8) (n : BitVec 3) : (setWriter w n s).blk.root = s.blk.root := rfl
@[simp] theorem setWriter_leaf (w : BitVec 8) (n : BitVec 3) : (setWriter w n s).blk.leaf = s.blk.leaf := rfl
@[simp] theorem setWriter_tmp (w : BitVec 8) (n : BitVec 3) : (setWriter w n s).tmp = s.tmp := rfl
@[simp] theorem setWriter_env (w : BitVec 8) (n : BitVec 3) : (setWriter w n s).env = s.env := rfl
@[simp] theorem setWriter_cfg (w : BitVec 8) (n : BitVec 3) : (setWriter w n s).cfg = s.cfg := rfl
@[simp] theorem setWriter_port (w : BitVec 8) (n : BitVec 3) : (setWriter w n s).port = s.port := rfl
@[simp] theorem setWriter_readFreq (w : BitVec 8) (n : BitVec 3) (x : Sym) : readFreq (setWriter w n s).blk x = readFreq s.blk x := rfl
@[simp] theorem setWriter_readLeaf (w : BitVec 8) (n : BitVec 3) (x : Sym) : readLeaf (setWriter w n s).blk x = readLeaf s.blk x := rfl
@[simp] theorem setWriter_readNode (w : BitVec 8) (n : BitVec 3) (x : NodeIdx) : readNode (setWriter w n s).blk x = readNode s.blk x := rfl

@[simp] theorem setFreq_fault (a : Sym) (n : Count) : (setFreq a n s).blk.fault = s.blk.fault := rfl
@[simp] theorem setFreq_tvalid (a : Sym) (n : Count) : (setFreq a n s).blk.tvalid = s.blk.tvalid := rfl
@[simp] theorem setFreq_cause (a : Sym) (n : Count) : (setFreq a n s).blk.cause = s.blk.cause := rfl
@[simp] theorem setFreq_rbuf (a : Sym) (n : Count) : (setFreq a n s).blk.rbuf = s.blk.rbuf := rfl
@[simp] theorem setFreq_rcnt (a : Sym) (n : Count) : (setFreq a n s).blk.rcnt = s.blk.rcnt := rfl
@[simp] theorem setFreq_wbuf (a : Sym) (n : Count) : (setFreq a n s).blk.wbuf = s.blk.wbuf := rfl
@[simp] theorem setFreq_wcnt (a : Sym) (n : Count) : (setFreq a n s).blk.wcnt = s.blk.wcnt := rfl
@[simp] theorem setFreq_freq (a : Sym) (n : Count) : (setFreq a n s).blk.freq = s.blk.freq.set a.toNat n a.isLt := rfl
@[simp] theorem setFreq_node (a : Sym) (n : Count) : (setFreq a n s).blk.node = s.blk.node := rfl
@[simp] theorem setFreq_nnode (a : Sym) (n : Count) : (setFreq a n s).blk.nnode = s.blk.nnode := rfl
@[simp] theorem setFreq_nleaf (a : Sym) (n : Count) : (setFreq a n s).blk.nleaf = s.blk.nleaf := rfl
@[simp] theorem setFreq_root (a : Sym) (n : Count) : (setFreq a n s).blk.root = s.blk.root := rfl
@[simp] theorem setFreq_leaf (a : Sym) (n : Count) : (setFreq a n s).blk.leaf = s.blk.leaf := rfl
@[simp] theorem setFreq_tmp (a : Sym) (n : Count) : (setFreq a n s).tmp = s.tmp := rfl
@[simp] theorem setFreq_env (a : Sym) (n : Count) : (setFreq a n s).env = s.env := rfl
@[simp] theorem setFreq_cfg (a : Sym) (n : Count) : (setFreq a n s).cfg = s.cfg := rfl
@[simp] theorem setFreq_port (a : Sym) (n : Count) : (setFreq a n s).port = s.port := rfl
@[simp] theorem setFreq_readLeaf (a : Sym) (n : Count) (x : Sym) : readLeaf (setFreq a n s).blk x = readLeaf s.blk x := rfl
@[simp] theorem setFreq_readNode (a : Sym) (n : Count) (x : NodeIdx) : readNode (setFreq a n s).blk x = readNode s.blk x := rfl

@[simp] theorem setLeaf_fault (a : Sym) (i : NodeIdx) : (setLeaf a i s).blk.fault = s.blk.fault := rfl
@[simp] theorem setLeaf_tvalid (a : Sym) (i : NodeIdx) : (setLeaf a i s).blk.tvalid = s.blk.tvalid := rfl
@[simp] theorem setLeaf_cause (a : Sym) (i : NodeIdx) : (setLeaf a i s).blk.cause = s.blk.cause := rfl
@[simp] theorem setLeaf_rbuf (a : Sym) (i : NodeIdx) : (setLeaf a i s).blk.rbuf = s.blk.rbuf := rfl
@[simp] theorem setLeaf_rcnt (a : Sym) (i : NodeIdx) : (setLeaf a i s).blk.rcnt = s.blk.rcnt := rfl
@[simp] theorem setLeaf_wbuf (a : Sym) (i : NodeIdx) : (setLeaf a i s).blk.wbuf = s.blk.wbuf := rfl
@[simp] theorem setLeaf_wcnt (a : Sym) (i : NodeIdx) : (setLeaf a i s).blk.wcnt = s.blk.wcnt := rfl
@[simp] theorem setLeaf_freq (a : Sym) (i : NodeIdx) : (setLeaf a i s).blk.freq = s.blk.freq := rfl
@[simp] theorem setLeaf_node (a : Sym) (i : NodeIdx) : (setLeaf a i s).blk.node = s.blk.node := rfl
@[simp] theorem setLeaf_nnode (a : Sym) (i : NodeIdx) : (setLeaf a i s).blk.nnode = s.blk.nnode := rfl
@[simp] theorem setLeaf_nleaf (a : Sym) (i : NodeIdx) : (setLeaf a i s).blk.nleaf = s.blk.nleaf := rfl
@[simp] theorem setLeaf_root (a : Sym) (i : NodeIdx) : (setLeaf a i s).blk.root = s.blk.root := rfl
@[simp] theorem setLeaf_leaf (a : Sym) (i : NodeIdx) : (setLeaf a i s).blk.leaf = s.blk.leaf.set a.toNat i a.isLt := rfl
@[simp] theorem setLeaf_tmp (a : Sym) (i : NodeIdx) : (setLeaf a i s).tmp = s.tmp := rfl
@[simp] theorem setLeaf_env (a : Sym) (i : NodeIdx) : (setLeaf a i s).env = s.env := rfl
@[simp] theorem setLeaf_cfg (a : Sym) (i : NodeIdx) : (setLeaf a i s).cfg = s.cfg := rfl
@[simp] theorem setLeaf_port (a : Sym) (i : NodeIdx) : (setLeaf a i s).port = s.port := rfl
@[simp] theorem setLeaf_readFreq (a : Sym) (i : NodeIdx) (x : Sym) : readFreq (setLeaf a i s).blk x = readFreq s.blk x := rfl
@[simp] theorem setLeaf_readNode (a : Sym) (i : NodeIdx) (x : NodeIdx) : readNode (setLeaf a i s).blk x = readNode s.blk x := rfl

@[simp] theorem setNode_fault (i : NodeIdx) (n : Node) : (setNode i n s).blk.fault = s.blk.fault := rfl
@[simp] theorem setNode_tvalid (i : NodeIdx) (n : Node) : (setNode i n s).blk.tvalid = s.blk.tvalid := rfl
@[simp] theorem setNode_cause (i : NodeIdx) (n : Node) : (setNode i n s).blk.cause = s.blk.cause := rfl
@[simp] theorem setNode_rbuf (i : NodeIdx) (n : Node) : (setNode i n s).blk.rbuf = s.blk.rbuf := rfl
@[simp] theorem setNode_rcnt (i : NodeIdx) (n : Node) : (setNode i n s).blk.rcnt = s.blk.rcnt := rfl
@[simp] theorem setNode_wbuf (i : NodeIdx) (n : Node) : (setNode i n s).blk.wbuf = s.blk.wbuf := rfl
@[simp] theorem setNode_wcnt (i : NodeIdx) (n : Node) : (setNode i n s).blk.wcnt = s.blk.wcnt := rfl
@[simp] theorem setNode_freq (i : NodeIdx) (n : Node) : (setNode i n s).blk.freq = s.blk.freq := rfl
@[simp] theorem setNode_node (i : NodeIdx) (n : Node) : (setNode i n s).blk.node = s.blk.node.setIfInBounds i.toNat n := rfl
@[simp] theorem setNode_nnode (i : NodeIdx) (n : Node) : (setNode i n s).blk.nnode = s.blk.nnode := rfl
@[simp] theorem setNode_nleaf (i : NodeIdx) (n : Node) : (setNode i n s).blk.nleaf = s.blk.nleaf := rfl
@[simp] theorem setNode_root (i : NodeIdx) (n : Node) : (setNode i n s).blk.root = s.blk.root := rfl
@[simp] theorem setNode_leaf (i : NodeIdx) (n : Node) : (setNode i n s).blk.leaf = s.blk.leaf := rfl
@[simp] theorem setNode_tmp (i : NodeIdx) (n : Node) : (setNode i n s).tmp = s.tmp := rfl
@[simp] theorem setNode_env (i : NodeIdx) (n : Node) : (setNode i n s).env = s.env := rfl
@[simp] theorem setNode_cfg (i : NodeIdx) (n : Node) : (setNode i n s).cfg = s.cfg := rfl
@[simp] theorem setNode_port (i : NodeIdx) (n : Node) : (setNode i n s).port = s.port := rfl
@[simp] theorem setNode_readFreq (i : NodeIdx) (n : Node) (x : Sym) : readFreq (setNode i n s).blk x = readFreq s.blk x := rfl
@[simp] theorem setNode_readLeaf (i : NodeIdx) (n : Node) (x : Sym) : readLeaf (setNode i n s).blk x = readLeaf s.blk x := rfl

@[simp] theorem setNnode_fault (n : NodeIdx) : (setNnode n s).blk.fault = s.blk.fault := rfl
@[simp] theorem setNnode_tvalid (n : NodeIdx) : (setNnode n s).blk.tvalid = s.blk.tvalid := rfl
@[simp] theorem setNnode_cause (n : NodeIdx) : (setNnode n s).blk.cause = s.blk.cause := rfl
@[simp] theorem setNnode_rbuf (n : NodeIdx) : (setNnode n s).blk.rbuf = s.blk.rbuf := rfl
@[simp] theorem setNnode_rcnt (n : NodeIdx) : (setNnode n s).blk.rcnt = s.blk.rcnt := rfl
@[simp] theorem setNnode_wbuf (n : NodeIdx) : (setNnode n s).blk.wbuf = s.blk.wbuf := rfl
@[simp] theorem setNnode_wcnt (n : NodeIdx) : (setNnode n s).blk.wcnt = s.blk.wcnt := rfl
@[simp] theorem setNnode_freq (n : NodeIdx) : (setNnode n s).blk.freq = s.blk.freq := rfl
@[simp] theorem setNnode_node (n : NodeIdx) : (setNnode n s).blk.node = s.blk.node := rfl
@[simp] theorem setNnode_nnode (n : NodeIdx) : (setNnode n s).blk.nnode = n := rfl
@[simp] theorem setNnode_nleaf (n : NodeIdx) : (setNnode n s).blk.nleaf = s.blk.nleaf := rfl
@[simp] theorem setNnode_root (n : NodeIdx) : (setNnode n s).blk.root = s.blk.root := rfl
@[simp] theorem setNnode_leaf (n : NodeIdx) : (setNnode n s).blk.leaf = s.blk.leaf := rfl
@[simp] theorem setNnode_tmp (n : NodeIdx) : (setNnode n s).tmp = s.tmp := rfl
@[simp] theorem setNnode_env (n : NodeIdx) : (setNnode n s).env = s.env := rfl
@[simp] theorem setNnode_cfg (n : NodeIdx) : (setNnode n s).cfg = s.cfg := rfl
@[simp] theorem setNnode_port (n : NodeIdx) : (setNnode n s).port = s.port := rfl
@[simp] theorem setNnode_readFreq (n : NodeIdx) (x : Sym) : readFreq (setNnode n s).blk x = readFreq s.blk x := rfl
@[simp] theorem setNnode_readLeaf (n : NodeIdx) (x : Sym) : readLeaf (setNnode n s).blk x = readLeaf s.blk x := rfl
@[simp] theorem setNnode_readNode (n : NodeIdx) (x : NodeIdx) : readNode (setNnode n s).blk x = readNode s.blk x := rfl

@[simp] theorem setNleaf_fault (n : BitVec 9) : (setNleaf n s).blk.fault = s.blk.fault := rfl
@[simp] theorem setNleaf_tvalid (n : BitVec 9) : (setNleaf n s).blk.tvalid = s.blk.tvalid := rfl
@[simp] theorem setNleaf_cause (n : BitVec 9) : (setNleaf n s).blk.cause = s.blk.cause := rfl
@[simp] theorem setNleaf_rbuf (n : BitVec 9) : (setNleaf n s).blk.rbuf = s.blk.rbuf := rfl
@[simp] theorem setNleaf_rcnt (n : BitVec 9) : (setNleaf n s).blk.rcnt = s.blk.rcnt := rfl
@[simp] theorem setNleaf_wbuf (n : BitVec 9) : (setNleaf n s).blk.wbuf = s.blk.wbuf := rfl
@[simp] theorem setNleaf_wcnt (n : BitVec 9) : (setNleaf n s).blk.wcnt = s.blk.wcnt := rfl
@[simp] theorem setNleaf_freq (n : BitVec 9) : (setNleaf n s).blk.freq = s.blk.freq := rfl
@[simp] theorem setNleaf_node (n : BitVec 9) : (setNleaf n s).blk.node = s.blk.node := rfl
@[simp] theorem setNleaf_nnode (n : BitVec 9) : (setNleaf n s).blk.nnode = s.blk.nnode := rfl
@[simp] theorem setNleaf_nleaf (n : BitVec 9) : (setNleaf n s).blk.nleaf = n := rfl
@[simp] theorem setNleaf_root (n : BitVec 9) : (setNleaf n s).blk.root = s.blk.root := rfl
@[simp] theorem setNleaf_leaf (n : BitVec 9) : (setNleaf n s).blk.leaf = s.blk.leaf := rfl
@[simp] theorem setNleaf_tmp (n : BitVec 9) : (setNleaf n s).tmp = s.tmp := rfl
@[simp] theorem setNleaf_env (n : BitVec 9) : (setNleaf n s).env = s.env := rfl
@[simp] theorem setNleaf_cfg (n : BitVec 9) : (setNleaf n s).cfg = s.cfg := rfl
@[simp] theorem setNleaf_port (n : BitVec 9) : (setNleaf n s).port = s.port := rfl
@[simp] theorem setNleaf_readFreq (n : BitVec 9) (x : Sym) : readFreq (setNleaf n s).blk x = readFreq s.blk x := rfl
@[simp] theorem setNleaf_readLeaf (n : BitVec 9) (x : Sym) : readLeaf (setNleaf n s).blk x = readLeaf s.blk x := rfl
@[simp] theorem setNleaf_readNode (n : BitVec 9) (x : NodeIdx) : readNode (setNleaf n s).blk x = readNode s.blk x := rfl

@[simp] theorem setRoot_fault (r : NodeIdx) : (setRoot r s).blk.fault = s.blk.fault := rfl
@[simp] theorem setRoot_tvalid (r : NodeIdx) : (setRoot r s).blk.tvalid = s.blk.tvalid := rfl
@[simp] theorem setRoot_cause (r : NodeIdx) : (setRoot r s).blk.cause = s.blk.cause := rfl
@[simp] theorem setRoot_rbuf (r : NodeIdx) : (setRoot r s).blk.rbuf = s.blk.rbuf := rfl
@[simp] theorem setRoot_rcnt (r : NodeIdx) : (setRoot r s).blk.rcnt = s.blk.rcnt := rfl
@[simp] theorem setRoot_wbuf (r : NodeIdx) : (setRoot r s).blk.wbuf = s.blk.wbuf := rfl
@[simp] theorem setRoot_wcnt (r : NodeIdx) : (setRoot r s).blk.wcnt = s.blk.wcnt := rfl
@[simp] theorem setRoot_freq (r : NodeIdx) : (setRoot r s).blk.freq = s.blk.freq := rfl
@[simp] theorem setRoot_node (r : NodeIdx) : (setRoot r s).blk.node = s.blk.node := rfl
@[simp] theorem setRoot_nnode (r : NodeIdx) : (setRoot r s).blk.nnode = s.blk.nnode := rfl
@[simp] theorem setRoot_nleaf (r : NodeIdx) : (setRoot r s).blk.nleaf = s.blk.nleaf := rfl
@[simp] theorem setRoot_root (r : NodeIdx) : (setRoot r s).blk.root = r := rfl
@[simp] theorem setRoot_leaf (r : NodeIdx) : (setRoot r s).blk.leaf = s.blk.leaf := rfl
@[simp] theorem setRoot_tmp (r : NodeIdx) : (setRoot r s).tmp = s.tmp := rfl
@[simp] theorem setRoot_env (r : NodeIdx) : (setRoot r s).env = s.env := rfl
@[simp] theorem setRoot_cfg (r : NodeIdx) : (setRoot r s).cfg = s.cfg := rfl
@[simp] theorem setRoot_port (r : NodeIdx) : (setRoot r s).port = s.port := rfl
@[simp] theorem setRoot_readFreq (r : NodeIdx) (x : Sym) : readFreq (setRoot r s).blk x = readFreq s.blk x := rfl
@[simp] theorem setRoot_readLeaf (r : NodeIdx) (x : Sym) : readLeaf (setRoot r s).blk x = readLeaf s.blk x := rfl
@[simp] theorem setRoot_readNode (r : NodeIdx) (x : NodeIdx) : readNode (setRoot r s).blk x = readNode s.blk x := rfl

@[simp] theorem setTvalid_fault : (setTvalid s).blk.fault = s.blk.fault := rfl
@[simp] theorem setTvalid_tvalid : (setTvalid s).blk.tvalid = true := rfl
@[simp] theorem setTvalid_cause : (setTvalid s).blk.cause = s.blk.cause := rfl
@[simp] theorem setTvalid_rbuf : (setTvalid s).blk.rbuf = s.blk.rbuf := rfl
@[simp] theorem setTvalid_rcnt : (setTvalid s).blk.rcnt = s.blk.rcnt := rfl
@[simp] theorem setTvalid_wbuf : (setTvalid s).blk.wbuf = s.blk.wbuf := rfl
@[simp] theorem setTvalid_wcnt : (setTvalid s).blk.wcnt = s.blk.wcnt := rfl
@[simp] theorem setTvalid_freq : (setTvalid s).blk.freq = s.blk.freq := rfl
@[simp] theorem setTvalid_node : (setTvalid s).blk.node = s.blk.node := rfl
@[simp] theorem setTvalid_nnode : (setTvalid s).blk.nnode = s.blk.nnode := rfl
@[simp] theorem setTvalid_nleaf : (setTvalid s).blk.nleaf = s.blk.nleaf := rfl
@[simp] theorem setTvalid_root : (setTvalid s).blk.root = s.blk.root := rfl
@[simp] theorem setTvalid_leaf : (setTvalid s).blk.leaf = s.blk.leaf := rfl
@[simp] theorem setTvalid_tmp : (setTvalid s).tmp = s.tmp := rfl
@[simp] theorem setTvalid_env : (setTvalid s).env = s.env := rfl
@[simp] theorem setTvalid_cfg : (setTvalid s).cfg = s.cfg := rfl
@[simp] theorem setTvalid_port : (setTvalid s).port = s.port := rfl
@[simp] theorem setTvalid_readFreq (x : Sym) : readFreq (setTvalid s).blk x = readFreq s.blk x := rfl
@[simp] theorem setTvalid_readLeaf (x : Sym) : readLeaf (setTvalid s).blk x = readLeaf s.blk x := rfl
@[simp] theorem setTvalid_readNode (x : NodeIdx) : readNode (setTvalid s).blk x = readNode s.blk x := rfl

@[simp] theorem setPq_blk (q : List NodeIdx) : (setPq q s).blk = s.blk := rfl
@[simp] theorem setPq_pq (q : List NodeIdx) : (setPq q s).tmp.pq = q := rfl
@[simp] theorem setPq_cstk (q : List NodeIdx) : (setPq q s).tmp.cstk = s.tmp.cstk := rfl
@[simp] theorem setPq_clen (q : List NodeIdx) : (setPq q s).tmp.clen = s.tmp.clen := rfl
@[simp] theorem setPq_cur (q : List NodeIdx) : (setPq q s).tmp.cur = s.tmp.cur := rfl
@[simp] theorem setPq_dlen (q : List NodeIdx) : (setPq q s).tmp.dlen = s.tmp.dlen := rfl
@[simp] theorem setPq_env (q : List NodeIdx) : (setPq q s).env = s.env := rfl
@[simp] theorem setPq_cfg (q : List NodeIdx) : (setPq q s).cfg = s.cfg := rfl
@[simp] theorem setPq_port (q : List NodeIdx) : (setPq q s).port = s.port := rfl

@[simp] theorem setClen_blk (n : BitVec 8) : (setClen n s).blk = s.blk := rfl
@[simp] theorem setClen_pq (n : BitVec 8) : (setClen n s).tmp.pq = s.tmp.pq := rfl
@[simp] theorem setClen_cstk (n : BitVec 8) : (setClen n s).tmp.cstk = s.tmp.cstk := rfl
@[simp] theorem setClen_clen (n : BitVec 8) : (setClen n s).tmp.clen = n := rfl
@[simp] theorem setClen_cur (n : BitVec 8) : (setClen n s).tmp.cur = s.tmp.cur := rfl
@[simp] theorem setClen_dlen (n : BitVec 8) : (setClen n s).tmp.dlen = s.tmp.dlen := rfl
@[simp] theorem setClen_env (n : BitVec 8) : (setClen n s).env = s.env := rfl
@[simp] theorem setClen_cfg (n : BitVec 8) : (setClen n s).cfg = s.cfg := rfl
@[simp] theorem setClen_port (n : BitVec 8) : (setClen n s).port = s.port := rfl

@[simp] theorem pushCstk_blk (b : Bool) : (pushCstk b s).blk = s.blk := rfl
@[simp] theorem pushCstk_pq (b : Bool) : (pushCstk b s).tmp.pq = s.tmp.pq := rfl
@[simp] theorem pushCstk_cstk (b : Bool) : (pushCstk b s).tmp.cstk = s.tmp.cstk.setIfInBounds s.tmp.clen.toNat b := rfl
@[simp] theorem pushCstk_clen (b : Bool) : (pushCstk b s).tmp.clen = s.tmp.clen + 1#8 := rfl
@[simp] theorem pushCstk_cur (b : Bool) : (pushCstk b s).tmp.cur = s.tmp.cur := rfl
@[simp] theorem pushCstk_dlen (b : Bool) : (pushCstk b s).tmp.dlen = s.tmp.dlen := rfl
@[simp] theorem pushCstk_env (b : Bool) : (pushCstk b s).env = s.env := rfl
@[simp] theorem pushCstk_cfg (b : Bool) : (pushCstk b s).cfg = s.cfg := rfl
@[simp] theorem pushCstk_port (b : Bool) : (pushCstk b s).port = s.port := rfl

@[simp] theorem setCursor_blk (i : NodeIdx) (n : BitVec 8) : (setCursor i n s).blk = s.blk := rfl
@[simp] theorem setCursor_pq (i : NodeIdx) (n : BitVec 8) : (setCursor i n s).tmp.pq = s.tmp.pq := rfl
@[simp] theorem setCursor_cstk (i : NodeIdx) (n : BitVec 8) : (setCursor i n s).tmp.cstk = s.tmp.cstk := rfl
@[simp] theorem setCursor_clen (i : NodeIdx) (n : BitVec 8) : (setCursor i n s).tmp.clen = s.tmp.clen := rfl
@[simp] theorem setCursor_cur (i : NodeIdx) (n : BitVec 8) : (setCursor i n s).tmp.cur = i := rfl
@[simp] theorem setCursor_dlen (i : NodeIdx) (n : BitVec 8) : (setCursor i n s).tmp.dlen = n := rfl
@[simp] theorem setCursor_env (i : NodeIdx) (n : BitVec 8) : (setCursor i n s).env = s.env := rfl
@[simp] theorem setCursor_cfg (i : NodeIdx) (n : BitVec 8) : (setCursor i n s).cfg = s.cfg := rfl
@[simp] theorem setCursor_port (i : NodeIdx) (n : BitVec 8) : (setCursor i n s).port = s.port := rfl

@[simp] theorem rewindSource_blk : (rewindSource s).blk = s.blk := rfl
@[simp] theorem rewindSource_tmp : (rewindSource s).tmp = s.tmp := rfl
@[simp] theorem rewindSource_src : (rewindSource s).env.src = s.env.src := rfl
@[simp] theorem rewindSource_spos : (rewindSource s).env.spos = 0 := rfl
@[simp] theorem rewindSource_snk : (rewindSource s).env.snk = s.env.snk := rfl
@[simp] theorem rewindSource_snkfl : (rewindSource s).env.snkfl = s.env.snkfl := rfl
@[simp] theorem rewindSource_cfg : (rewindSource s).cfg = s.cfg := rfl
@[simp] theorem rewindSource_port : (rewindSource s).port = s.port := rfl

@[simp] theorem replaceSource_blk (bytes : List Byte) : (replaceSource bytes s).blk = s.blk := rfl
@[simp] theorem replaceSource_tmp (bytes : List Byte) : (replaceSource bytes s).tmp = s.tmp := rfl
@[simp] theorem replaceSource_src (bytes : List Byte) : (replaceSource bytes s).env.src = bytes := rfl
@[simp] theorem replaceSource_spos (bytes : List Byte) : (replaceSource bytes s).env.spos = 0 := rfl
@[simp] theorem replaceSource_snk (bytes : List Byte) : (replaceSource bytes s).env.snk = s.env.snk := rfl
@[simp] theorem replaceSource_snkfl (bytes : List Byte) : (replaceSource bytes s).env.snkfl = s.env.snkfl := rfl
@[simp] theorem replaceSource_cfg (bytes : List Byte) : (replaceSource bytes s).cfg = s.cfg := rfl
@[simp] theorem replaceSource_port (bytes : List Byte) : (replaceSource bytes s).port = s.port := rfl

@[simp] theorem replaceSink_blk : (replaceSink s).blk = s.blk := rfl
@[simp] theorem replaceSink_tmp : (replaceSink s).tmp = s.tmp := rfl
@[simp] theorem replaceSink_src : (replaceSink s).env.src = s.env.src := rfl
@[simp] theorem replaceSink_spos : (replaceSink s).env.spos = s.env.spos := rfl
@[simp] theorem replaceSink_snk : (replaceSink s).env.snk = [] := rfl
@[simp] theorem replaceSink_snkfl : (replaceSink s).env.snkfl = 0 := rfl
@[simp] theorem replaceSink_cfg : (replaceSink s).cfg = s.cfg := rfl
@[simp] theorem replaceSink_port : (replaceSink s).port = s.port := rfl

/-! The state proper, and the arguments and the port around it (R44). -/

@[simp] theorem system_blk : s.system.blk = s.blk := rfl
@[simp] theorem system_tmp : s.system.tmp = s.tmp := rfl
@[simp] theorem system_spos : s.system.spos = s.env.spos := rfl
@[simp] theorem system_snk : s.system.snk = s.env.snk := rfl
@[simp] theorem system_snkfl : s.system.snkfl = s.env.snkfl := rfl

variable (p : Config) (src : List Byte) (port : Port) (x : System)

@[simp] theorem around_blk : (State.around p src port x).blk = x.blk := rfl
@[simp] theorem around_tmp : (State.around p src port x).tmp = x.tmp := rfl
@[simp] theorem around_cfg : (State.around p src port x).cfg = p := rfl
@[simp] theorem around_port : (State.around p src port x).port = port := rfl
@[simp] theorem around_src : (State.around p src port x).env.src = src := rfl
@[simp] theorem around_spos : (State.around p src port x).env.spos = x.spos := rfl
@[simp] theorem around_snk : (State.around p src port x).env.snk = x.snk := rfl
@[simp] theorem around_snkfl : (State.around p src port x).env.snkfl = x.snkfl := rfl
@[simp] theorem around_system : (State.around p src port x).system = x := rfl
@[simp] theorem around_self : State.around s.cfg s.env.src s.port s.system = s := rfl

@[simp] theorem lastRsp_pushRsp (st : BitVec 8) (rd : BitVec 64) : lastRsp (pushRsp st rd s) = { st := st, rd := rd } := by
  simp [lastRsp]

@[simp] theorem resetUnder_blk : (State.resetUnder p).blk = Block.reset := rfl
@[simp] theorem resetUnder_tmp : (State.resetUnder p).tmp = Transient.reset := rfl
@[simp] theorem resetUnder_env : (State.resetUnder p).env = Env.initial := rfl
@[simp] theorem resetUnder_cfg : (State.resetUnder p).cfg = p := rfl
@[simp] theorem resetUnder_port : (State.resetUnder p).port = { inputs := [], rsps := [] } := rfl

end Sys2Proof.Machine
end

