-- ==== Sys2Proof/Laws/Ops.lean ====
section
/-! SUPPORT. One specification lemma per shared operation: what it answers, what it changes and what it leaves. Later
proofs cite these and unfold no operation. -/

namespace Sys2Proof.Machine

/-! ### Ending a command -/

theorem respond_eq (st : BitVec 8) (rd : BitVec 64) (s : State) : respond st rd s = .next (pushRsp st rd s) := rfl

theorem raise_eq (c : Cause) (s : State) : raise c s = .next (pushRsp c.code 0#64 (enterFault c s)) := rfl

/-- With FAULT = 0 the command's own rule applies (R98 step 5). -/
theorem whenLive_live {s : State} (h : live s) (body : Host.Outcome State Fault Refusal) : whenLive s body = body := by
  unfold whenLive; rw [show s.blk.fault = false from h]; rfl

/-- With FAULT = 1 it is refused (R243). -/
theorem whenLive_faulted {s : State} (h : s.blk.fault = true) (body : Host.Outcome State Fault Refusal) :
    whenLive s body = .next (pushRsp stFaulted 0#64 s) := by
  unfold whenLive; rw [h]; rfl

/-- Every gated command is refused or runs its own rule. -/
theorem whenLive_cases {s t : State} {body : Host.Outcome State Fault Refusal} (h : whenLive s body = .next t) :
    (s.blk.fault = true ∧ t = pushRsp stFaulted 0#64 s) ∨ (live s ∧ body = .next t) := by
  cases hf : s.blk.fault with
  | true => rw [whenLive_faulted hf] at h; cases h; exact .inl ⟨rfl, rfl⟩
  | false => rw [whenLive_live hf] at h; exact .inr ⟨hf, h⟩

/-! ### The streams -/

/-- `SrcNext()` on an exhausted source (R62). -/
theorem srcNext_exhausted {s : State} (h : s.env.src.length ≤ s.env.spos) : srcNext s = (none, s) := by
  unfold srcNext; rw [List.getElem?_eq_none h]

/-- `SrcNext()` with a byte left (R62). -/
theorem srcNext_byte {s : State} (h : s.env.spos < s.env.src.length) :
    srcNext s = (some s.env.src[s.env.spos], { s with env.spos := s.env.spos + 1 }) := by
  unfold srcNext; rw [List.getElem?_eq_getElem h]

/-- Everything `SrcNext()` can do. -/
theorem srcNext_cases (s : State) :
    (s.env.src.length ≤ s.env.spos ∧ srcNext s = (none, s)) ∨
    (∃ h : s.env.spos < s.env.src.length,
      srcNext s = (some s.env.src[s.env.spos], { s with env.spos := s.env.spos + 1 })) := by
  rcases Nat.lt_or_ge s.env.spos s.env.src.length with h | h
  · exact .inr ⟨h, srcNext_byte h⟩
  · exact .inl ⟨h, srcNext_exhausted h⟩

/-- `SrcNext()` keeps SPOS legal (R41). -/
theorem srcNext_sposLegal {s : State} (h : s.env.spos ≤ s.env.src.length) :
    (srcNext s).2.env.spos ≤ (srcNext s).2.env.src.length := by
  obtain ⟨_, e⟩ | ⟨h', e⟩ := srcNext_cases s
  · rw [e]; exact h
  · rw [e]; exact h'

/-- `n` bytes taken at once (R132). -/
theorem srcNextN_eq (n : Nat) {s : State} (h : s.env.spos + n ≤ s.env.src.length) :
    srcNextN n s = ((s.env.src.drop s.env.spos).take n, { s with env.spos := s.env.spos + n }) := by
  induction n generalizing s with
  | zero => rfl
  | succ n ih =>
    have hlt : s.env.spos < s.env.src.length := by omega
    have e := ih (s := { s with env.spos := s.env.spos + 1 }) (by dsimp only; omega)
    rw [srcNextN, srcNext_byte hlt]
    simp only [e]
    rw [List.drop_eq_getElem_cons hlt, List.take_succ_cons, Nat.add_right_comm, Nat.add_assoc]

/-- The bytes reach the sink in order, and nothing else changes (R64, R142). -/
theorem snkPutAll_eq (bs : List Byte) (s : State) : snkPutAll bs s = { s with env.snk := s.env.snk ++ bs } := by
  unfold snkPutAll
  induction bs generalizing s with
  | nil => simp
  | cons b bs ih => rw [List.foldl_cons, ih]; simp [snkPut]

/-! ### The bit buffers -/

/-- `RdBit()` with bits left in RBUF (R130). -/
theorem rdBit_buffered {s : State} (h : s.blk.rcnt ≠ 0#4) :
    rdBit s = (some (s.blk.rbuf.getLsbD (s.blk.rcnt.toNat - 1)), { s with blk.rcnt := s.blk.rcnt - 1#4 }) := by
  unfold rdBit; rw [if_neg h]; rfl

/-- `RdBit()` that refills (R130): bit 7 of the next byte. -/
theorem rdBit_refill {s : State} (h : s.blk.rcnt = 0#4) (hs : s.env.spos < s.env.src.length) :
    rdBit s = (some (s.env.src[s.env.spos].getLsbD 7),
      { s with env.spos := s.env.spos + 1, blk.rbuf := s.env.src[s.env.spos], blk.rcnt := 7#4 }) := by
  unfold rdBit; rw [if_pos h, srcNext_byte hs]; simp [takeBit, refill]

/-- `RdBit()` at end of data (R130): nothing changes. -/
theorem rdBit_eod {s : State} (h : s.blk.rcnt = 0#4) (hs : s.env.src.length ≤ s.env.spos) : rdBit s = (none, s) := by
  unfold rdBit; rw [if_pos h, srcNext_exhausted hs]

/-- Everything `RdBit()` can do. -/
theorem rdBit_cases (s : State) :
    (s.blk.rcnt ≠ 0#4 ∧
      rdBit s = (some (s.blk.rbuf.getLsbD (s.blk.rcnt.toNat - 1)), { s with blk.rcnt := s.blk.rcnt - 1#4 })) ∨
    (∃ h : s.env.spos < s.env.src.length, s.blk.rcnt = 0#4 ∧
      rdBit s = (some (s.env.src[s.env.spos].getLsbD 7),
        { s with env.spos := s.env.spos + 1, blk.rbuf := s.env.src[s.env.spos], blk.rcnt := 7#4 })) ∨
    (s.blk.rcnt = 0#4 ∧ s.env.src.length ≤ s.env.spos ∧ rdBit s = (none, s)) := by
  by_cases h : s.blk.rcnt = 0#4
  · rcases Nat.lt_or_ge s.env.spos s.env.src.length with hs | hs
    · exact .inr (.inl ⟨hs, h, rdBit_refill h hs⟩)
    · exact .inr (.inr ⟨h, hs, rdBit_eod h hs⟩)
  · exact .inl ⟨h, rdBit_buffered h⟩

/-- `WrBit(b)` that leaves the byte incomplete (R140). -/
theorem wrBit_pending {s : State} (b : Bool) (h : s.blk.wcnt ≠ 7#3) :
    wrBit b s = setWriter (setBit s.blk.wbuf (7 - s.blk.wcnt.toNat) b) (s.blk.wcnt + 1#3) s := by
  unfold wrBit; rw [if_neg h]

/-- `WrBit(b)` that completes the byte and emits it (R140). -/
theorem wrBit_emits {s : State} (b : Bool) (h : s.blk.wcnt = 7#3) :
    wrBit b s = setWriter 0x00#8 0#3 (snkPut (setBit s.blk.wbuf 0 b) s) := by
  unfold wrBit; rw [if_pos h, h]; rfl

/-- `WrBit(b)` changes WBUF, WCNT and SNK only. -/
theorem wrBit_frame (b : Bool) (s : State) :
    ∃ w n snk, wrBit b s = { s with blk.wbuf := w, blk.wcnt := n, env.snk := snk } := by
  by_cases h : s.blk.wcnt = 7#3
  · exact ⟨_, _, _, wrBit_emits b h⟩
  · exact ⟨_, _, _, wrBit_pending b h⟩

/-- Reading a bit of a byte after setting one. -/
theorem getLsbD_setBit (v : BitVec 8) (i j : Nat) (b : Bool) (hi : i < 8) :
    (setBit v i b).getLsbD j = if j = i then b else v.getLsbD j := by
  have one : ∀ k, (1#8).getLsbD k = decide (k = 0) := by
    intro k; cases k <;> simp [BitVec.getLsbD_one]
  unfold setBit
  split <;> rename_i hb
  · rw [BitVec.getLsbD_or, BitVec.getLsbD_shiftLeft, one]
    split
    · subst_vars; simp [hi]
    · rename_i hji
      have : ¬ (j < 8 ∧ ¬ j < i ∧ j - i = 0) := by omega
      by_cases h1 : j < 8 <;> by_cases h2 : j < i <;> by_cases h3 : j - i = 0 <;> simp_all
  · have hb' : b = false := by simpa using hb
    rw [BitVec.getLsbD_and, BitVec.getLsbD_not, BitVec.getLsbD_shiftLeft, one]
    split
    · subst_vars; simp [hi]
    · rename_i hji
      by_cases h1 : j < 8
      · have : ¬ (¬ j < i ∧ j - i = 0) := by omega
        by_cases h2 : j < i <;> by_cases h3 : j - i = 0 <;> simp_all
      · simp [BitVec.getLsbD_of_ge v j (by omega)]

/-! ### The tables and the arena -/

theorem readFreq_setFreq (a x : Sym) (n : Count) (s : State) :
    readFreq (setFreq a n s).blk x = if x = a then n else readFreq s.blk x := by
  simp only [readFreq, setFreq_freq, Vector.getElem_set, BitVec.toNat_inj, eq_comm]

theorem readLeaf_setLeaf (a x : Sym) (i : NodeIdx) (s : State) :
    readLeaf (setLeaf a i s).blk x = if x = a then i else readLeaf s.blk x := by
  simp only [readLeaf, setLeaf_leaf, Vector.getElem_set, BitVec.toNat_inj, eq_comm]

/-- NIL is the only index that names no entry (R32). -/
theorem toNat_lt_of_ne_nil {i : NodeIdx} (h : i ≠ nilIdx) : i.toNat < 511 := by
  have : i.toNat ≠ 511 := fun e => h (BitVec.eq_of_toNat_eq e)
  have := i.isLt
  omega

theorem readNode_setNode (i x : NodeIdx) (n : Node) (s : State) (hi : i ≠ nilIdx) :
    readNode (setNode i n s).blk x = if x = i then n else readNode s.blk x := by
  have hlt := toNat_lt_of_ne_nil hi
  simp only [readNode, setNode_node, Vector.getElem?_setIfInBounds, BitVec.toNat_inj]
  by_cases h : x = i
  · simp [h, hlt]
  · simp [h, Ne.symm h]

theorem readNode_setPar (i p x : NodeIdx) (s : State) (hi : i ≠ nilIdx) :
    readNode (setPar i p s).blk x =
      if x = i then { readNode s.blk i with par := p } else readNode s.blk x := by
  unfold setPar; exact readNode_setNode i x _ s hi

theorem readNode_allocNode (n : Node) (x : NodeIdx) (s : State) (h : s.blk.nnode ≠ nilIdx) :
    readNode (allocNode n s).blk x = if x = s.blk.nnode then n else readNode s.blk x := by
  unfold allocNode; rw [setNnode_readNode]; exact readNode_setNode _ x n s h

/-! ### The priority queue -/

theorem leastKey_mem (b : Block) (m : NodeIdx) (l : List NodeIdx) : leastKey b m l ∈ m :: l := by
  induction l generalizing m with
  | nil => simp [leastKey]
  | cons j js ih =>
    have h := ih (if keyLt b j m then j else m)
    rw [leastKey]
    rcases List.mem_cons.1 h with h | h
    · rw [h]; split <;> simp
    · exact List.mem_cons_of_mem _ (List.mem_cons_of_mem _ h)

/-- `PopMin()` takes a member out of PQ and changes nothing else. -/
theorem popMin_cases (s : State) :
    (s.tmp.pq = [] ∧ popMin s = none) ∨
    (∃ m, m ∈ s.tmp.pq ∧ popMin s = some (m, setPq (s.tmp.pq.erase m) s)) := by
  unfold popMin
  cases hq : s.tmp.pq with
  | nil => exact .inl ⟨rfl, rfl⟩
  | cons i is => exact .inr ⟨leastKey s.blk i is, leastKey_mem s.blk i is, rfl⟩

/-! ### The codec's walks -/

/-- The upward walk of ENCODE changes CSTK and CLEN only. -/
theorem pushCode_frame {k : Nat} {n : NodeIdx} {s t : State} (h : pushCode k n s = some t) :
    ∃ stk len, t = { s with tmp.cstk := stk, tmp.clen := len } := by
  induction k generalizing n s with
  | zero =>
    unfold pushCode at h
    split at h
    · cases h; exact ⟨_, _, rfl⟩
    · cases h
  | succ k ih =>
    unfold pushCode at h
    dsimp only at h
    split at h
    · cases h; exact ⟨_, _, rfl⟩
    · obtain ⟨stk, len, e⟩ := ih h
      exact ⟨stk, len, e⟩

/-- The emission of ENCODE changes WBUF, WCNT, SNK and CLEN only. -/
theorem emitCode_frame (k : Nat) (s : State) :
    ∃ w n snk len, emitCode k s = { s with blk.wbuf := w, blk.wcnt := n, env.snk := snk, tmp.clen := len } := by
  induction k generalizing s with
  | zero => exact ⟨_, _, _, _, rfl⟩
  | succ k ih =>
    unfold emitCode
    obtain ⟨w, n, snk, e⟩ := wrBit_frame (readCstk (setClen (s.tmp.clen - 1#8) s) (setClen (s.tmp.clen - 1#8) s).tmp.clen)
      (setClen (s.tmp.clen - 1#8) s)
    obtain ⟨w', n', snk', len', e'⟩ := ih (wrBit (readCstk (setClen (s.tmp.clen - 1#8) s)
      (setClen (s.tmp.clen - 1#8) s).tmp.clen) (setClen (s.tmp.clen - 1#8) s))
    exact ⟨w', n', snk', len', by simp only [e']; rw [e]; rfl⟩

end Sys2Proof.Machine
end

