-- ==== Sys2Proof/Laws/PerInstr.lean ====
section
/-! SUPPORT. The fields of an assembled command word, the must-be-zero masks (rules R91, R92), and one lemma per
instruction: decoding its encoded word gives it back. -/

namespace Sys2Proof

/-- Bit by bit, a command word is D, then A, then OP (R91). -/
theorem getLsbD_cmdWord (op a : BitVec 8) (d : BitVec 64) (i : Nat) :
    (cmdWord op a d).getLsbD i =
      if i < 64 then d.getLsbD i else if i < 72 then a.getLsbD (i - 64) else op.getLsbD (i - 72) := by
  change BitVec.getLsbD (w := 8 + 8 + 64) (op ++ a ++ d) i = _
  rw [BitVec.getLsbD_append, BitVec.getLsbD_append]
  split
  · rfl
  · have h : (i - 64 < 8) = (i < 72) := by simp only [eq_iff_iff]; omega
    simp only [h, Nat.sub_sub]

@[simp] theorem opField_cmdWord (op a : BitVec 8) (d : BitVec 64) : opField (cmdWord op a d) = op := by
  unfold opField
  ext i hi
  rw [BitVec.getElem_extractLsb', getLsbD_cmdWord]
  simp [show ¬ 72 + i < 64 by omega, BitVec.getLsbD_eq_getElem hi]

@[simp] theorem aField_cmdWord (op a : BitVec 8) (d : BitVec 64) : aField (cmdWord op a d) = a := by
  unfold aField
  ext i hi
  rw [BitVec.getElem_extractLsb', getLsbD_cmdWord]
  simp [show 64 + i < 72 by omega, BitVec.getLsbD_eq_getElem hi]

@[simp] theorem dField_cmdWord (op a : BitVec 8) (d : BitVec 64) : dField (cmdWord op a d) = d := by
  unfold dField
  ext i hi
  rw [BitVec.getElem_extractLsb', getLsbD_cmdWord]
  rw [Nat.zero_add, if_pos hi, BitVec.getLsbD_eq_getElem hi]

/-- A command word is its three fields. -/
theorem cmdWord_fields (cw : CmdWord) : cmdWord (opField cw) (aField cw) (dField cw) = cw := by
  apply BitVec.eq_of_getLsbD_eq
  intro i hi
  rw [getLsbD_cmdWord]
  unfold opField aField dField
  simp only [BitVec.getLsbD_extractLsb']
  split
  · simp [*]
  · split
    · simp [show i - 64 < 8 by omega, show 64 + (i - 64) = i by omega]
    · simp [show i - 72 < 8 by omega, show 72 + (i - 72) = i by omega]

/-- Masking a command word masks its fields. -/
theorem cmdWord_and (op a op' a' : BitVec 8) (d d' : BitVec 64) :
    cmdWord op a d &&& cmdWord op' a' d' = cmdWord (op &&& op') (a &&& a') (d &&& d') := by
  apply BitVec.eq_of_getLsbD_eq
  intro i _
  simp only [BitVec.getLsbD_and, getLsbD_cmdWord]
  split
  · rfl
  · split <;> rfl

theorem cmdWord_eq_zero (op a : BitVec 8) (d : BitVec 64) :
    cmdWord op a d = 0#80 ↔ op = 0#8 ∧ a = 0#8 ∧ d = 0#64 := by
  constructor
  · intro h
    refine ⟨?_, ?_, ?_⟩
    · rw [← opField_cmdWord op a d, h]; rfl
    · rw [← aField_cmdWord op a d, h]; rfl
    · rw [← dField_cmdWord op a d, h]; rfl
  · rintro ⟨rfl, rfl, rfl⟩; rfl

/-- The fields of a format's mask (R92). -/
def maskA : Format → BitVec 8
  | .z => 0xFF#8
  | .b => 0xFE#8
  | .s => 0x00#8
  | .w => 0xFF#8
  | .sw => 0x00#8

/-- The fields of a format's mask (R92). -/
def maskD : Format → BitVec 64
  | .z => BitVec.allOnes 64
  | .b => BitVec.allOnes 64
  | .s => BitVec.allOnes 64
  | .w => 0#64
  | .sw => 0#64

theorem mustBeZero_fields (f : Format) : mustBeZero f = cmdWord 0#8 (maskA f) (maskD f) := by
  cases f <;> rfl

/-- The must-be-zero test of R97, field by field. -/
theorem cmdWord_legal_iff (op a : BitVec 8) (d : BitVec 64) (f : Format) :
    cmdWord op a d &&& mustBeZero f = 0#80 ↔ a &&& maskA f = 0#8 ∧ d &&& maskD f = 0#64 := by
  rw [mustBeZero_fields, cmdWord_and, cmdWord_eq_zero]
  simp

/-- The decoder on a word given by its fields. -/
theorem decode_cmdWord (op a : BitVec 8) (d : BitVec 64) :
    decode (cmdWord op a d) =
      match findRow op with
      | none => .error .undefinedOpcode
      | some r =>
        if a &&& maskA r.format = 0#8 ∧ d &&& maskD r.format = 0#64 then .ok (r.build a d)
        else .error .mustBeZeroBitSet := by
  unfold decode
  rw [opField_cmdWord]
  cases findRow op with
  | none => rfl
  | some r => simp only [cmdWord_legal_iff, aField_cmdWord, dField_cmdWord]

/-- A[7:1] = 0 (R92, format B), as a mask. -/
theorem bitField_iff (a : BitVec 8) : a &&& 0xFE#8 = 0#8 ↔ a.extractLsb' 1 7 = 0#7 := by
  revert a; decide

namespace Laws.RoundTrip

/-- Decoding the encoded word of a well-formed instruction gives it back. -/
def Statement (i : Instr) : Prop := i.wellFormed = true → decode (encode i) = .ok i

theorem nop : Statement .nop := fun _ => by simp only [encode, decode_cmdWord]; rfl
theorem reset : Statement .reset := fun _ => by simp only [encode, decode_cmdWord]; rfl
theorem rdstat : Statement .rdstat := fun _ => by simp only [encode, decode_cmdWord]; rfl
theorem rdbit : Statement .rdbit := fun _ => by simp only [encode, decode_cmdWord]; rfl
theorem rdbyte : Statement .rdbyte := fun _ => by simp only [encode, decode_cmdWord]; rfl
theorem rdword : Statement .rdword := fun _ => by simp only [encode, decode_cmdWord]; rfl

theorem wrbit (a : BitVec 8) : Statement (.wrbit a) := fun h => by
  have ha : a &&& 0xFE#8 = 0#8 := (bitField_iff a).2 (by simpa [Instr.wellFormed] using h)
  simp only [encode, decode_cmdWord]
  change (if a &&& 0xFE#8 = 0#8 ∧ 0#64 &&& BitVec.allOnes 64 = 0#64 then _ else _) = _
  rw [if_pos ⟨ha, rfl⟩]

theorem wrbyte (d : BitVec 64) : Statement (.wrbyte d) := fun _ => by
  simp only [encode, decode_cmdWord]
  change (if 0#8 &&& 0xFF#8 = 0#8 ∧ d &&& 0#64 = 0#64 then _ else _) = _
  rw [if_pos ⟨rfl, by simp⟩]

theorem wrword (d : BitVec 64) : Statement (.wrword d) := fun _ => by
  simp only [encode, decode_cmdWord]
  change (if 0#8 &&& 0xFF#8 = 0#8 ∧ d &&& 0#64 = 0#64 then _ else _) = _
  rw [if_pos ⟨rfl, by simp⟩]

theorem flush : Statement .flush := fun _ => by simp only [encode, decode_cmdWord]; rfl

theorem count (a : Sym) : Statement (.count a) := fun _ => by
  simp only [encode, decode_cmdWord]
  change (if a &&& 0x00#8 = 0#8 ∧ 0#64 &&& BitVec.allOnes 64 = 0#64 then _ else _) = _
  rw [if_pos ⟨by simp, rfl⟩]

theorem setfreq (a : Sym) (d : Count) : Statement (.setfreq a d) := fun _ => by
  simp only [encode, decode_cmdWord]
  change (if a &&& 0x00#8 = 0#8 ∧ d &&& 0#64 = 0#64 then _ else _) = _
  rw [if_pos ⟨by simp, by simp⟩]

theorem getfreq (a : Sym) : Statement (.getfreq a) := fun _ => by
  simp only [encode, decode_cmdWord]
  change (if a &&& 0x00#8 = 0#8 ∧ 0#64 &&& BitVec.allOnes 64 = 0#64 then _ else _) = _
  rw [if_pos ⟨by simp, rfl⟩]

theorem build : Statement .build := fun _ => by simp only [encode, decode_cmdWord]; rfl
theorem getnleaf : Statement .getnleaf := fun _ => by simp only [encode, decode_cmdWord]; rfl
theorem gettotal : Statement .gettotal := fun _ => by simp only [encode, decode_cmdWord]; rfl

theorem encode (a : Sym) : Statement (.encode a) := fun _ => by
  simp only [Sys2Proof.encode, decode_cmdWord]
  change (if a &&& 0x00#8 = 0#8 ∧ 0#64 &&& BitVec.allOnes 64 = 0#64 then _ else _) = _
  rw [if_pos ⟨by simp, rfl⟩]

theorem decode : Statement .decode := fun _ => by simp only [Sys2Proof.encode, decode_cmdWord]; rfl

end Laws.RoundTrip

end Sys2Proof
end

