-- ==== Sys2Proof/Laws/Walks.lean ====
section
/-! SUPPORT. What the phases of BUILD and the descent of DECODE change, and what they leave (rules R165 to R169, R193). -/

namespace Sys2Proof.Machine

/-- `t` differs from `s` in NODE, NNODE, NLEAF, ROOT, LEAF and PQ at most. -/
def SameButTree (s t : State) : Prop :=
  ∃ node nnode nleaf root leaf pq,
    t = { s with blk := { s.blk with node := node, nnode := nnode, nleaf := nleaf, root := root, leaf := leaf },
                 tmp := { s.tmp with pq := pq } }

theorem SameButTree.refl (s : State) : SameButTree s s := ⟨_, _, _, _, _, _, rfl⟩

theorem SameButTree.trans {s t u : State} (h : SameButTree s t) (h' : SameButTree t u) : SameButTree s u := by
  obtain ⟨_, _, _, _, _, _, rfl⟩ := h
  obtain ⟨_, _, _, _, _, _, rfl⟩ := h'
  exact ⟨_, _, _, _, _, _, rfl⟩

theorem sameButTree_setPq (q : List NodeIdx) (s : State) : SameButTree s (setPq q s) := ⟨_, _, _, _, _, _, rfl⟩
theorem sameButTree_setNnode (n : NodeIdx) (s : State) : SameButTree s (setNnode n s) := ⟨_, _, _, _, _, _, rfl⟩
theorem sameButTree_setNleaf (n : BitVec 9) (s : State) : SameButTree s (setNleaf n s) := ⟨_, _, _, _, _, _, rfl⟩
theorem sameButTree_setRoot (r : NodeIdx) (s : State) : SameButTree s (setRoot r s) := ⟨_, _, _, _, _, _, rfl⟩
theorem sameButTree_setLeaf (a : Sym) (i : NodeIdx) (s : State) : SameButTree s (setLeaf a i s) :=
  ⟨_, _, _, _, _, _, rfl⟩
theorem sameButTree_setPar (i p : NodeIdx) (s : State) : SameButTree s (setPar i p s) := ⟨_, _, _, _, _, _, rfl⟩
theorem sameButTree_allocNode (n : Node) (s : State) : SameButTree s (allocNode n s) := ⟨_, _, _, _, _, _, rfl⟩
theorem sameButTree_pqInsert (i : NodeIdx) (s : State) : SameButTree s (pqInsert i s) := ⟨_, _, _, _, _, _, rfl⟩

theorem sameButTree_leafStep (s : State) (a : Sym) : SameButTree s (leafStep s a) := by
  unfold leafStep
  split
  · exact sameButTree_setLeaf a nilIdx s
  · exact (sameButTree_setLeaf a s.blk.nnode s).trans
      ((sameButTree_pqInsert _ _).trans (sameButTree_allocNode _ _))

/-- The leaf phase (R165). -/
theorem sameButTree_leafPhase (s : State) : SameButTree s (leafPhase s) := by
  have fold : ∀ (l : List Sym) (s : State), SameButTree s (l.foldl leafStep s) := by
    intro l
    induction l with
    | nil => exact SameButTree.refl
    | cons a l ih => exact fun s => (sameButTree_leafStep s a).trans (ih _)
  exact (fold allSyms s).trans (sameButTree_setNleaf _ _)

theorem sameButTree_popMin {s t : State} {m : NodeIdx} (h : popMin s = some (m, t)) : SameButTree s t := by
  obtain ⟨_, e⟩ | ⟨_, _, e⟩ := popMin_cases s
  · rw [e] at h; cases h
  · rw [e] at h; cases h; exact sameButTree_setPq _ _

/-- A merge step (R168), overflowing or not. -/
theorem sameButTree_mergeStep (s : State) : SameButTree s (mergeStep s).2 := by
  unfold mergeStep
  split
  · exact SameButTree.refl s
  · rename_i a s1 h1
    have k1 := sameButTree_popMin h1
    split
    · exact k1
    · rename_i b s2 h2
      have k2 := k1.trans (sameButTree_popMin h2)
      dsimp only
      split
      · exact k2
      · exact k2.trans ((sameButTree_allocNode _ _).trans ((sameButTree_setPar _ _ _).trans
          ((sameButTree_setPar _ _ _).trans (sameButTree_pqInsert _ _))))

/-- The merge loop (R167), overflowing or not. -/
theorem sameButTree_mergeLoop (k : Nat) (s : State) : SameButTree s (mergeLoop k s).2 := by
  induction k generalizing s with
  | zero => exact SameButTree.refl s
  | succ k ih =>
    unfold mergeLoop
    split
    · have e := sameButTree_mergeStep s
      split <;> rename_i h <;> rw [h] at e
      · exact e
      · exact e.trans (ih _)
    · exact SameButTree.refl s

/-- The root phase (R169). -/
theorem sameButTree_rootPhase (s : State) : SameButTree s (rootPhase s) := by
  unfold rootPhase
  split
  · exact SameButTree.refl s
  · rename_i r s1 h1
    have k1 := sameButTree_popMin h1
    dsimp only
    split
    · exact k1.trans ((sameButTree_allocNode _ _).trans ((sameButTree_setPar _ _ _).trans (sameButTree_setRoot _ _)))
    · exact k1.trans (sameButTree_setRoot _ _)

/-- Everything the descent of DECODE can change: RBUF, RCNT, SPOS, CUR, DLEN, FAULT, CAUSE, and the one response. -/
theorem descend_frame {k : Nat} {s t : State} (h : descend k s = .next t) :
    ∃ rbuf rcnt fault cause spos cur dlen rsp,
      t = { s with
        blk := { s.blk with rbuf := rbuf, rcnt := rcnt, fault := fault, cause := cause },
        env := { s.env with spos := spos },
        tmp := { s.tmp with cur := cur, dlen := dlen },
        port := { s.port with rsps := s.port.rsps ++ [rsp] } } := by
  induction k generalizing s with
  | zero => cases h
  | succ k ih =>
    have key : ∀ (bit : Bool) (s1 : State),
        (∃ rbuf rcnt spos, s1 = { s with
          blk := { s.blk with rbuf := rbuf, rcnt := rcnt }, env := { s.env with spos := spos } }) →
        (let c := child s1.blk s1.tmp.cur bit
         if c = nilIdx then raise .malformedBitstream s1
         else
           let s2 := setCursor c (s1.tmp.dlen + 1#8) s1
           if (readNode s2.blk c).kind = .leaf then respond stOk (rdOfByte (readNode s2.blk c).sym) s2
           else descend k s2) = .next t →
        ∃ rbuf rcnt fault cause spos cur dlen rsp,
          t = { s with
            blk := { s.blk with rbuf := rbuf, rcnt := rcnt, fault := fault, cause := cause },
            env := { s.env with spos := spos },
            tmp := { s.tmp with cur := cur, dlen := dlen },
            port := { s.port with rsps := s.port.rsps ++ [rsp] } } := by
      rintro bit s1 ⟨rbuf, rcnt, spos, rfl⟩ h
      dsimp only at h
      split at h
      · cases h; exact ⟨_, _, _, _, _, _, _, _, rfl⟩
      · split at h
        · cases h; exact ⟨_, _, _, _, _, _, _, _, rfl⟩
        · obtain ⟨a, b, c, d, e, f, g, r, rfl⟩ := ih h
          exact ⟨a, b, c, d, e, f, g, r, rfl⟩
    unfold descend at h
    obtain ⟨_, e⟩ | ⟨_, _, e⟩ | ⟨_, _, e⟩ := rdBit_cases s
    · rw [e] at h; exact key _ _ ⟨_, _, _, rfl⟩ h
    · rw [e] at h; exact key _ _ ⟨_, _, _, rfl⟩ h
    · rw [e] at h
      dsimp only at h
      split at h
      · cases h; exact ⟨_, _, _, _, _, _, _, _, rfl⟩
      · cases h; exact ⟨_, _, _, _, _, _, _, _, rfl⟩

end Sys2Proof.Machine
end

