-- ==== Sys2Proof/Tests/Slice0.lean ====
section
/-! SUPPORT. Tests: the words and results stand in spec/30_encoding.md section 8, in the examples of the command rules and
in spec/95_test_vectors.md (the vector is named at each test). Then, for every statement with hypotheses, states and
operands that meet them. -/

namespace Sys2Proof.Tests

set_option Elab.async false

open Sys2Proof Sys2Proof.Machine

/-! ### Helpers -/

/-- The outcome is a next state of which the check holds. -/
def nextWith (o : Host.Outcome State Fault Refusal) (check : State → Bool) : Bool :=
  match o with
  | .next t => check t
  | _ => false

theorem nextWith_spec {o : Host.Outcome State Fault Refusal} {check : State → Bool} (h : nextWith o check = true) :
    ∃ t, o = .next t ∧ check t = true := by
  unfold nextWith at h
  split at h
  · exact ⟨_, rfl, h⟩
  · cases h

/-- The responses are exactly this one. -/
def answered (t : State) (st : BitVec 8) (rd : BitVec 64) : Bool := t.port.rsps == [⟨st, rd⟩]

/-- The reset values of R43, of FREQ and LEAF the entries of symbol 65. -/
def atReset (b : Block) : Bool :=
  statusWord b == 0#64 && b.rbuf == 0#8 && b.wbuf == 0#8 && b.nnode == 0#9 && b.nleaf == 0#9 && b.root == 511#9 &&
  readFreq b 65#8 == 0#64 && readLeaf b 65#8 == 511#9

/-- A fresh block over a source. -/
def overSource (bytes : List Byte) : State := { State.reset with env.src := bytes }

/-- A reader that holds `n` bits of `b`, over a source. -/
def reading (b : BitVec 8) (n : BitVec 4) (bytes : List Byte) : State :=
  { overSource bytes with blk.rbuf := b, blk.rcnt := n }

/-- A writer that holds `n` bits in `w`. -/
def writing (w : BitVec 8) (n : BitVec 3) : State := { State.reset with blk.wbuf := w, blk.wcnt := n }

/-- A faulted block. -/
def faulted : State := { State.reset with blk.fault := true, blk.cause := 0x12#8 }

/-- A fresh block with these counts. -/
def table (counts : List (Sym × Count)) : State := counts.foldl (fun s c => setFreq c.1 c.2 s) State.reset

/-- A host input waiting. -/
def waiting (inp : HostInput) (s : State) : State := { s with port.inputs := [inp] }

/-- The tree of vector V-T1, table 65:5, 66:5, 67:10, as its arena rows give it. -/
def threeLeaves : State :=
  { table [(65#8, 5#64), (66#8, 5#64), (67#8, 10#64)] with
    blk.tvalid := true, blk.nleaf := 3#9, blk.nnode := 5#9, blk.root := 4#9,
    blk.leaf := (((Vector.replicate 256 nilIdx).set 65 0#9).set 66 1#9).set 67 2#9,
    blk.node := (((((Vector.replicate 511 Node.zero).set 0 ⟨.leaf, 65#8, 5#64, nilIdx, nilIdx, 3#9⟩).set 1
      ⟨.leaf, 66#8, 5#64, nilIdx, nilIdx, 3#9⟩).set 2 ⟨.leaf, 67#8, 10#64, nilIdx, nilIdx, 4#9⟩).set 3
      ⟨.internal, 0#8, 10#64, 0#9, 1#9, 4#9⟩).set 4 ⟨.internal, 0#8, 20#64, 3#9, 2#9, nilIdx⟩ }

/-- The tree of vector V-T4, table 65:1000. -/
def oneLeaf : State :=
  { table [(65#8, 1000#64)] with
    blk.tvalid := true, blk.nleaf := 1#9, blk.nnode := 2#9, blk.root := 1#9,
    blk.leaf := (Vector.replicate 256 nilIdx).set 65 0#9,
    blk.node := ((Vector.replicate 511 Node.zero).set 0 ⟨.leaf, 65#8, 1000#64, nilIdx, nilIdx, 1#9⟩).set 1
      ⟨.internal, 0#8, 1000#64, 0#9, nilIdx, nilIdx⟩ }

/-- A tree state whose reader holds `n` bits of `b`, over a source. -/
def decoding (s : State) (b : BitVec 8) (n : BitVec 4) (bytes : List Byte) : State :=
  { s with blk.rbuf := b, blk.rcnt := n, env.src := bytes }

theorem treeOk_threeLeaves : TreeOk threeLeaves.blk where
  leafCount := by decide +kernel
  nodeCount := by decide +kernel
  rootIs := by decide +kernel
  leaves := by decide +kernel
  leafIndex := by decide +kernel
  inner := by decide +kernel
  sums := by decide +kernel
  owners := by
    have h : ∀ p : NodeIdx, threeLeaves.blk.nleaf.toNat ≤ p.toNat → p.toNat < threeLeaves.blk.nnode.toNat →
        ∀ i : NodeIdx, i ≠ nilIdx →
          ((readNode threeLeaves.blk p).c0 = i ∨ (readNode threeLeaves.blk p).c1 = i) →
          i ≠ threeLeaves.blk.root ∧ (readNode threeLeaves.blk i).par = p := by decide +kernel
    exact fun p i h1 h2 => h p h1 h2 i
  rootInternal := by decide +kernel
  parents := by unfold isChildOf; decide +kernel

theorem treeOk_oneLeaf : TreeOk oneLeaf.blk where
  leafCount := by decide +kernel
  nodeCount := by decide +kernel
  rootIs := by decide +kernel
  leaves := by decide +kernel
  leafIndex := by decide +kernel
  inner := by decide +kernel
  sums := by decide +kernel
  owners := by
    have h : ∀ p : NodeIdx, oneLeaf.blk.nleaf.toNat ≤ p.toNat → p.toNat < oneLeaf.blk.nnode.toNat →
        ∀ i : NodeIdx, i ≠ nilIdx →
          ((readNode oneLeaf.blk p).c0 = i ∨ (readNode oneLeaf.blk p).c1 = i) →
          i ≠ oneLeaf.blk.root ∧ (readNode oneLeaf.blk i).par = p := by decide +kernel
    exact fun p i h1 h2 => h p h1 h2 i
  rootInternal := by decide +kernel
  parents := by unfold isChildOf; decide +kernel

theorem inv_threeLeaves : Inv threeLeaves where
  rcntLegal := by decide
  wbufLowZero := fun i _ => by
    rw [show threeLeaves.blk.wbuf = 0#8 from rfl]; exact BitVec.getLsbD_zero
  causeClear := fun _ => rfl
  causeSet := fun h => by cases h
  noRoot := fun h => by cases h
  fresh := fun h => by cases h
  tree := fun _ => treeOk_threeLeaves
  sposLegal := by decide

/-! ### Decoding: the words of spec/30_encoding.md section 8 and of programs P1 to P5 -/

theorem test_decode_nop : decode 0x00000000000000000000#80 = .ok .nop := by decide
theorem test_decode_reset : decode 0x01000000000000000000#80 = .ok .reset := by decide
theorem test_decode_rdstat : decode 0x02000000000000000000#80 = .ok .rdstat := by decide
theorem test_decode_rdbit : decode 0x10000000000000000000#80 = .ok .rdbit := by decide
theorem test_decode_rdbyte : decode 0x11000000000000000000#80 = .ok .rdbyte := by decide
theorem test_decode_rdword : decode 0x12000000000000000000#80 = .ok .rdword := by decide
theorem test_decode_wrbit : decode 0x20010000000000000000#80 = .ok (.wrbit 1#8) := by decide
theorem test_decode_wrbyte : decode 0x21000000000000000041#80 = .ok (.wrbyte 0x41#64) := by decide
theorem test_decode_wrword : decode 0x220000000000000003E8#80 = .ok (.wrword 1000#64) := by decide
theorem test_decode_flush : decode 0x23000000000000000000#80 = .ok .flush := by decide
theorem test_decode_count : decode 0x30410000000000000000#80 = .ok (.count 0x41#8) := by decide
theorem test_decode_setfreq : decode 0x314100000000000003E8#80 = .ok (.setfreq 0x41#8 1000#64) := by decide
theorem test_decode_getfreq : decode 0x32400000000000000000#80 = .ok (.getfreq 0x40#8) := by decide
theorem test_decode_build : decode 0x40000000000000000000#80 = .ok .build := by decide
theorem test_decode_getnleaf : decode 0x41000000000000000000#80 = .ok .getnleaf := by decide
theorem test_decode_gettotal : decode 0x42000000000000000000#80 = .ok .gettotal := by decide
theorem test_decode_encode : decode 0x50430000000000000000#80 = .ok (.encode 0x43#8) := by decide
theorem test_decode_decode : decode 0x51000000000000000000#80 = .ok .decode := by decide

/-- V-C6 to V-C10: must-be-zero bits and undefined opcodes. -/
theorem test_decode_illegal :
    decode 0x01000000000000000001#80 = .error .mustBeZeroBitSet ∧
    decode 0x20020000000000000000#80 = .error .mustBeZeroBitSet ∧
    decode 0x30070000000000000001#80 = .error .mustBeZeroBitSet ∧
    decode 0x21010000000000000041#80 = .error .mustBeZeroBitSet ∧
    decode 0xFF000000000000000000#80 = .error .undefinedOpcode ∧
    decode 0x13000000000000000000#80 = .error .undefinedOpcode := by decide

/-- Step 7 of program P1 and step 3 of program P3, from the encoder. -/
theorem test_encode :
    encode (.wrbit 1#8) = 0x20010000000000000000#80 ∧ encode (.setfreq 0x42#8 5#64) = 0x31420000000000000005#80 := by
  decide

theorem test_decodeTableWord :
    decodeTableWord 80 0x30410000000000000000 = some (.count 0x41#8) ∧
    decodeTableWord 80 0x20020000000000000000 = none := by decide

/-! ### WellFormed: one ill-formed term for each check -/

theorem test_wellFormed_instr :
    (Instr.wrbit 2#8).wellFormed = false ∧ (Instr.wrbit 0x80#8).wellFormed = false ∧
    (Instr.wrbit 1#8).wellFormed = true := by decide

theorem test_wellFormed_written :
    (Written.wrbit 2).wellFormed = false ∧ (Written.wrbyte 256).wellFormed = false ∧
    (Written.wrword (2 ^ 64)).wellFormed = false ∧ (Written.count 256).wellFormed = false ∧
    (Written.setfreq 256 0).wellFormed = false ∧ (Written.setfreq 0 (2 ^ 64)).wellFormed = false ∧
    (Written.getfreq 256).wellFormed = false ∧ (Written.encode 256).wellFormed = false := by decide

/-! ### One command -/

/-- V-C1. -/
theorem test_nop : nextWith (exec .nop State.reset) (fun t => atReset t.blk && answered t 0x00#8 0#64) = true := by
  decide +kernel

/-- P5 step 10: RESET ends the fault, and R121 (a): the source position stays. -/
theorem test_reset_recovers :
    nextWith (exec .reset { faulted with blk.freq := Vector.replicate 256 9#64, env.src := [0x40#8], env.spos := 1 })
      (fun t => atReset t.blk && t.env.spos == 1 && answered t 0x00#8 0#64) = true := by decide +kernel

/-- V-C5: RESET discards the pending bits of both buffers. -/
theorem test_reset_discards_bits :
    nextWith (exec .reset { writing 0x80#8 1#3 with blk.rbuf := 0xA5#8, blk.rcnt := 7#4 })
      (fun t => atReset t.blk && t.env.snk == []) = true := by decide +kernel

/-- V-C4. -/
theorem test_rdstat_wcnt : nextWith (exec .rdstat (writing 0xA0#8 3#3)) (fun t => answered t 0x00#8 0x30000#64) = true := by
  decide

/-- P5 step 9: RDSTAT is accepted while FAULT = 1. -/
theorem test_rdstat_faulted :
    nextWith (exec .rdstat { faulted with blk.tvalid := true, blk.rcnt := 6#4 })
      (fun t => answered t 0x00#8 0x601203#64) = true := by decide

/-- V-B2, first command. -/
theorem test_rdbit_refills :
    nextWith (exec .rdbit (overSource [0xA5#8, 0x3C#8]))
      (fun t => answered t 0x00#8 1#64 && t.blk.rbuf == 0xA5#8 && t.blk.rcnt == 7#4 && t.env.spos == 1) = true := by
  decide

/-- V-B2, last command: bits are delivered after the source is exhausted. -/
theorem test_rdbit_buffered :
    nextWith (exec .rdbit (reading 0xA5#8 6#4 [])) (fun t => answered t 0x00#8 1#64 && t.blk.rcnt == 5#4) = true := by
  decide

/-- V-B2, RDBYTE past a part-read byte. -/
theorem test_rdbyte_bypasses_bits :
    nextWith (exec .rdbyte (reading 0xA5#8 7#4 [0x3C#8]))
      (fun t => answered t 0x00#8 0x3C#64 && t.blk.rbuf == 0xA5#8 && t.blk.rcnt == 7#4 && t.env.spos == 1) = true := by
  decide

/-- V-B3. -/
theorem test_rdbyte_eod :
    nextWith (exec .rdbyte State.reset) (fun t => answered t 0x01#8 0#64 && !t.blk.fault) = true := by decide

/-- V-B4a, both byte orders. -/
theorem test_rdword :
    nextWith (exec .rdword (overSource [1#8, 2#8, 3#8, 4#8, 5#8, 6#8, 7#8, 8#8]))
      (fun t => answered t 0x00#8 0x0807060504030201#64 && t.env.spos == 8) = true ∧
    nextWith (exec .rdword { overSource [1#8, 2#8, 3#8, 4#8, 5#8, 6#8, 7#8, 8#8] with cfg.wordBigEndian := true })
      (fun t => answered t 0x00#8 0x0102030405060708#64) = true := by decide

/-- V-B4c. -/
theorem test_rdword_short :
    nextWith (exec .rdword (overSource [0xE8#8, 0x03#8, 0x00#8]))
      (fun t => answered t 0x10#8 0#64 && t.env.spos == 3 && t.blk.fault && t.blk.cause == 0x10#8) = true := by decide

/-- V-W1: the eighth bit emits the byte. -/
theorem test_wrbit_emits :
    nextWith (exec (.wrbit 1#8) (writing 0xA4#8 7#3))
      (fun t => t.env.snk == [0xA5#8] && t.blk.wbuf == 0#8 && t.blk.wcnt == 0#3) = true := by decide

/-- V-W2, third bit. -/
theorem test_wrbit_pending :
    nextWith (exec (.wrbit 1#8) (writing 0x80#8 2#3))
      (fun t => t.env.snk == [] && t.blk.wbuf == 0xA0#8 && t.blk.wcnt == 3#3) = true := by decide

/-- V-W3: D[63:8] is ignored, and the byte overtakes the pending bits. -/
theorem test_wrbyte :
    nextWith (exec (.wrbyte 0x1FF#64) (writing 0xA0#8 3#3))
      (fun t => t.env.snk == [0xFF#8] && t.blk.wbuf == 0xA0#8 && t.blk.wcnt == 3#3) = true := by decide

/-- V-W4, both byte orders. -/
theorem test_wrword :
    nextWith (exec (.wrword 0x0102030405060708#64) State.reset)
      (fun t => t.env.snk == [8#8, 7#8, 6#8, 5#8, 4#8, 3#8, 2#8, 1#8]) = true ∧
    nextWith (exec (.wrword 0x0102030405060708#64) { State.reset with cfg.wordBigEndian := true })
      (fun t => t.env.snk == [1#8, 2#8, 3#8, 4#8, 5#8, 6#8, 7#8, 8#8]) = true := by decide

/-- V-W2. -/
theorem test_flush_pending :
    nextWith (exec .flush (writing 0xA0#8 3#3))
      (fun t => t.env.snk == [0xA0#8] && t.env.snkfl == 1 && t.blk.wbuf == 0#8 && t.blk.wcnt == 0#3) = true := by decide

/-- V-W5. -/
theorem test_flush_empty :
    nextWith (exec .flush State.reset) (fun t => t.env.snk == [] && t.env.snkfl == 1) = true := by decide

/-- V-F3. -/
theorem test_count_to_the_maximum :
    nextWith (exec (.count 1#8) (table [(1#8, 0xFFFFFFFFFFFFFFFE#64)]))
      (fun t => readFreq t.blk 1#8 == 0xFFFFFFFFFFFFFFFF#64 && answered t 0x00#8 0#64) = true := by decide +kernel

/-- V-F3. -/
theorem test_count_overflow :
    nextWith (exec (.count 1#8) (table [(1#8, 0xFFFFFFFFFFFFFFFF#64)]))
      (fun t => readFreq t.blk 1#8 == 0xFFFFFFFFFFFFFFFF#64 && answered t 0x22#8 0#64 &&
        statusWord t.blk == 0x2201#64) = true := by decide +kernel

/-- V-F2. -/
theorem test_setfreq :
    nextWith (exec (.setfreq 0x41#8 1000#64) State.reset)
      (fun t => readFreq t.blk 0x41#8 == 1000#64 && readFreq t.blk 0x42#8 == 0#64) = true := by decide +kernel

/-- V-F5. -/
theorem test_setfreq_frozen :
    nextWith (exec (.setfreq 65#8 1#64) oneLeaf)
      (fun t => readFreq t.blk 65#8 == 1000#64 && answered t 0x23#8 0#64 && statusWord t.blk == 0x2303#64) = true := by
  decide +kernel

/-- V-F1. -/
theorem test_getfreq :
    nextWith (exec (.getfreq 0x41#8) (table [(0x41#8, 3#64)])) (fun t => answered t 0x00#8 3#64) = true ∧
    nextWith (exec (.getfreq 0x42#8) (table [(0x41#8, 3#64)])) (fun t => answered t 0x00#8 0#64) = true := by
  decide +kernel

/-- V-T1, the source's tie-break table: the whole arena. -/
theorem test_build_internal_before_leaf :
    nextWith (exec .build (table [(65#8, 5#64), (66#8, 5#64), (67#8, 10#64)]))
      (fun t => t.blk.nleaf == 3#9 && t.blk.nnode == 5#9 && t.blk.root == 4#9 && t.tmp.pq == [] &&
        [0#9, 1#9, 2#9, 3#9, 4#9].all (fun i => readNode t.blk i == readNode threeLeaves.blk i) &&
        [64#8, 65#8, 66#8, 67#8].all (fun a => readLeaf t.blk a == readLeaf threeLeaves.blk a) &&
        answered t 0x00#8 0#64) = true := by decide +kernel

/-- V-T2: the leaf of symbol 0 comes before an internal node of the same count. -/
theorem test_build_symbol_zero_before_internal :
    nextWith (exec .build (table [(0#8, 2#64), (1#8, 1#64), (2#8, 1#64)]))
      (fun t => t.blk.root == 4#9 && readNode t.blk 3#9 == ⟨.internal, 0#8, 2#64, 1#9, 2#9, 4#9⟩ &&
        readNode t.blk 4#9 == ⟨.internal, 0#8, 4#64, 0#9, 3#9, nilIdx⟩ &&
        code t.blk 0#8 == [false] && code t.blk 1#8 == [true, false] && code t.blk 2#8 == [true, true]) = true := by
  decide +kernel

/-- R160's example. -/
theorem test_getnleaf : nextWith (exec .getnleaf threeLeaves) (fun t => answered t 0x00#8 3#64) = true := by decide +kernel

/-- R160's example. -/
theorem test_gettotal : nextWith (exec .gettotal threeLeaves) (fun t => answered t 0x00#8 20#64) = true := by decide +kernel

/-- V-E1, the third ENCODE: two bits after three. -/
theorem test_encode_command :
    nextWith (exec (.encode 66#8) { threeLeaves with blk.wbuf := 0x20#8, blk.wcnt := 3#3 })
      (fun t => answered t 0x00#8 2#64 && t.blk.wbuf == 0x28#8 && t.blk.wcnt == 5#3 && t.env.snk == []) = true := by
  decide +kernel

/-- V-E6. -/
theorem test_encode_no_leaf :
    nextWith (exec (.encode 8#8) threeLeaves)
      (fun t => answered t 0x21#8 0#64 && statusWord t.blk == 0x2103#64 && t.blk.wcnt == 0#3) = true := by
  decide +kernel

/-- V-E2, the third DECODE, and the fifth, which meets the end in mid-path. -/
theorem test_decode_command :
    nextWith (exec .decode (decoding threeLeaves 0x28#8 5#4 []))
      (fun t => answered t 0x00#8 66#64 && t.blk.rcnt == 3#4) = true ∧
    nextWith (exec .decode (decoding threeLeaves 0x28#8 1#4 []))
      (fun t => answered t 0x12#8 0#64 && statusWord t.blk == 0x1203#64) = true := by decide +kernel

/-- V-E4: a bit 1 leads out of the one-symbol tree; V-E3: at a clean boundary the answer is EOD. -/
theorem test_decode_one_symbol :
    nextWith (exec .decode (decoding oneLeaf 0x40#8 7#4 []))
      (fun t => answered t 0x12#8 0#64 && t.blk.rcnt == 6#4 && t.blk.fault) = true ∧
    nextWith (exec .decode (decoding oneLeaf 0x00#8 0#4 []))
      (fun t => answered t 0x01#8 0#64 && !t.blk.fault) = true := by decide +kernel

/-- V-C7, and P5 step 8: an illegal word is tested after FAULT. -/
theorem test_illegal_word :
    nextWith (acceptCommand 0x20020000000000000000#80 State.reset)
      (fun t => answered t 0x2F#8 0#64 && statusWord t.blk == 0x2F01#64 && t.blk.wcnt == 0#3) = true ∧
    nextWith (acceptCommand 0x13000000000000000000#80 faulted)
      (fun t => answered t 0x02#8 0#64 && statusWord t.blk == 0x1201#64) = true := by decide +kernel

/-! ### One step -/

/-- The step after `withFetchWord` runs that word (V-F1). -/
theorem test_step_withFetchWord :
    nextWith (step (State.reset.withFetchWord 80 0x30410000000000000000))
      (fun t => readFreq t.blk 0x41#8 == 1#64 && answered t 0x00#8 0#64 && t.port.inputs == []) = true := by
  decide +kernel

/-- V-B4b: RDWORD with WORD_BIG_ENDIAN = true as an argument of the step function. -/
theorem test_transact_big_endian :
    (match transact { wordBigEndian := true } [0#8, 0#8, 0#8, 0#8, 0#8, 0#8, 0x03#8, 0xE8#8] 0x12000000000000000000#80
        State.reset.system with
     | .next (x, r) => r == ⟨0x00#8, 1000#64⟩ && x.spos == 8
     | _ => false) = true := by decide

/-- R66, R67 and R270 through the step. -/
theorem test_step_host_inputs :
    nextWith (step (waiting .rewind { reading 0xA5#8 3#4 [1#8, 2#8] with env.spos := 2 }))
      (fun t => t.env.spos == 0 && t.blk.rcnt == 3#4) = true ∧
    nextWith (step (waiting .replaceSink { writing 0x80#8 1#3 with env.snk := [7#8], env.snkfl := 2 }))
      (fun t => t.env.snk == [] && t.env.snkfl == 0 && t.blk.wcnt == 1#3) = true ∧
    nextWith (step (waiting .pinReset { faulted with env.snk := [7#8] }))
      (fun t => atReset t.blk && t.env.snk == [7#8] && t.port.rsps == []) = true := by decide +kernel

/-! ### Witnesses: states and operands that meet the hypotheses of each statement -/

/-- The counts of V-T1. -/
def tieTable : State := table [(65#8, 5#64), (66#8, 5#64), (67#8, 10#64)]

/-- The same counts in a block with other registers, another arena and a filled queue. -/
def tieTableElsewhere : State :=
  { tieTable with blk.rcnt := 3#4, blk.nnode := 7#9, tmp.pq := [9#9],
                  blk.node := Vector.replicate 511 ⟨.internal, 1#8, 2#64, 3#9, 4#9, 5#9⟩ }

/-- V-T12: the sum of the counts is 2^64. -/
def overflowTable : State := table [(1#8, 0xFFFFFFFFFFFFFFFF#64), (2#8, 1#64)]

/-- V-T12: the sum of the counts is 2^64 − 1. -/
def fullTable : State := table [(1#8, 0xFFFFFFFFFFFFFFFE#64), (2#8, 1#64)]

/-- The tree is not touched by what the reader holds. -/
theorem treeOk_decoding {s : State} (h : TreeOk s.blk) (b : BitVec 8) (n : BitVec 4) (bytes : List Byte) :
    TreeOk (decoding s b n bytes).blk :=
  ⟨h.leafCount, h.nodeCount, h.rootIs, h.leaves, h.leafIndex, h.inner, h.sums, h.owners, h.rootInternal, h.parents⟩

/-- The invariant does not look at the port. -/
theorem inv_waiting {s : State} (h : Inv s) (inp : HostInput) : Inv (waiting inp s) :=
  ⟨h.rcntLegal, h.wbufLowZero, h.causeClear, h.causeSet, h.noRoot, h.fresh, h.tree, h.sposLegal⟩

theorem witness_DecodeExactlyInvertsEncode :
    decode 0x20010000000000000000#80 = .ok (.wrbit 1#8) ∧ (Instr.wrbit 1#8).wellFormed = true ∧
    encode (.wrbit 1#8) = 0x20010000000000000000#80 := by decide

theorem witness_IllegalWordRaisesIllegalCmd :
    opField 0x13000000000000000000#80 ∉ [0x00#8, 0x01#8, 0x02#8, 0x10#8, 0x11#8, 0x12#8, 0x20#8, 0x21#8, 0x22#8, 0x23#8,
      0x30#8, 0x31#8, 0x32#8, 0x40#8, 0x41#8, 0x42#8, 0x50#8, 0x51#8] ∧
    (opField 0x01000000000000000001#80 = 0x01#8 ∧ dField 0x01000000000000000001#80 ≠ 0#64) ∧
    (opField 0x51800000000000000000#80 = 0x51#8 ∧ aField 0x51800000000000000000#80 ≠ 0#8) ∧
    (opField 0x20020000000000000000#80 = 0x20#8 ∧ (aField 0x20020000000000000000#80).extractLsb' 1 7 ≠ 0#7) ∧
    (opField 0x20008000000000000000#80 = 0x20#8 ∧ dField 0x20008000000000000000#80 ≠ 0#64) ∧
    (opField 0x50000000000000000001#80 = 0x50#8 ∧ dField 0x50000000000000000001#80 ≠ 0#64) ∧
    (opField 0x22010000000000000000#80 = 0x22#8 ∧ aField 0x22010000000000000000#80 ≠ 0#8) ∧
    State.reset.blk.fault = false ∧ faulted.blk.fault = true := by decide

theorem witness_StepRunsTheDecodedCommand :
    (waiting (.command 0x10000000000000000000#80) State.reset).port.inputs =
      .command 0x10000000000000000000#80 :: [] ∧
    decode 0x10000000000000000000#80 = .ok .rdbit := by decide

theorem witness_HostActionsTouchTheStreamsOnly :
    (waiting .rewind State.reset).port.inputs = .rewind :: [] ∧
    (waiting (.replaceSource [1#8]) State.reset).port.inputs = .replaceSource [1#8] :: [] ∧
    (waiting .replaceSink State.reset).port.inputs = .replaceSink :: [] := by decide

theorem witness_IdleStepHoldsTheState : State.reset.port.inputs = [] := rfl

theorem witness_FaultedBlockRefusesAllButResetAndRdstat :
    faulted.blk.fault = true ∧
    (decode 0x21000000000000000041#80 ≠ .ok .reset ∧ decode 0x21000000000000000041#80 ≠ .ok .rdstat) ∧
    (decode 0x13000000000000000000#80 ≠ .ok .reset ∧ decode 0x13000000000000000000#80 ≠ .ok .rdstat) ∧
    decode 0x01000000000000000000#80 = .ok .reset ∧ decode 0x02000000000000000000#80 = .ok .rdstat := by decide

theorem witness_NopDoesNothing : State.reset.blk.fault = false ∧ faulted.blk.fault = true := by decide

theorem witness_ResetWritesTheResetValues :
    (0x01#8 ≠ 0#8 ∨ 0#64 ≠ 0#64) ∧ (0#8 ≠ 0#8 ∨ 1#64 ≠ 0#64) ∧ State.reset.blk.fault = false ∧
    faulted.blk.fault = true ∧
    ∃ t, acceptCommand (cmdWord 0x01#8 0#8 0#64) faulted = .next t ∧ (!t.blk.fault) = true :=
  ⟨by decide, by decide, rfl, rfl, nextWith_spec (by decide)⟩

theorem witness_RdbitDeliversTheNextBit :
    ((reading 0xA5#8 8#4 []).blk.fault = false ∧ (reading 0xA5#8 8#4 []).blk.rcnt ≠ 0#4 ∧
      (reading 0xA5#8 8#4 []).blk.rcnt.toNat ≤ 8) ∧
    ((reading 0xA5#8 1#4 []).blk.fault = false ∧ (reading 0xA5#8 1#4 []).blk.rcnt ≠ 0#4) ∧
    ((overSource [0xA5#8]).blk.rcnt = 0#4 ∧ (overSource [0xA5#8]).env.spos < (overSource [0xA5#8]).env.src.length) ∧
    (State.reset.blk.rcnt = 0#4 ∧ State.reset.env.src.length ≤ State.reset.env.spos) := by decide

theorem witness_RdbyteReturnsTheNextByte :
    State.reset.blk.fault = false ∧ State.reset.env.src.length ≤ State.reset.env.spos ∧
    (overSource [0xA5#8]).blk.fault = false ∧
    (overSource [0xA5#8]).env.spos < (overSource [0xA5#8]).env.src.length := by decide

/-- Sources of 0, 1, 7 and 8 bytes. -/
theorem witness_RdwordReadsEightBytes :
    State.reset.blk.fault = false ∧ State.reset.env.src.length ≤ State.reset.env.spos ∧
    (∀ n ∈ [1, 7], (overSource (List.replicate n 1#8)).env.spos < (overSource (List.replicate n 1#8)).env.src.length ∧
      (overSource (List.replicate n 1#8)).env.src.length < (overSource (List.replicate n 1#8)).env.spos + 8) ∧
    (overSource (List.replicate 8 1#8)).env.spos + 8 ≤ (overSource (List.replicate 8 1#8)).env.src.length := by decide

theorem witness_WrbitAppendsABit :
    (0#8).extractLsb' 1 7 = 0#7 ∧ (1#8).extractLsb' 1 7 = 0#7 ∧
    ((writing 0#8 0#3).blk.fault = false ∧ (writing 0#8 0#3).blk.wcnt ≠ 7#3) ∧
    ((writing 0xA8#8 6#3).blk.fault = false ∧ (writing 0xA8#8 6#3).blk.wcnt ≠ 7#3) ∧
    ((writing 0xA4#8 7#3).blk.fault = false ∧ (writing 0xA4#8 7#3).blk.wcnt = 7#3) := by decide

theorem witness_WrbyteEmitsTheLowByte : State.reset.blk.fault = false := rfl

theorem witness_WrwordEmitsEightBytes :
    State.reset.blk.fault = false ∧ State.reset.cfg.wordBigEndian = false ∧
    ({ State.reset with cfg.wordBigEndian := true } : State).cfg.wordBigEndian = true := by decide

theorem witness_FlushEmitsThePartialByte :
    (State.reset.blk.fault = false ∧ State.reset.blk.wcnt = 0#3) ∧
    ((writing 0x80#8 1#3).blk.fault = false ∧ (writing 0x80#8 1#3).blk.wcnt ≠ 0#3) ∧
    ((writing 0xA4#8 7#3).blk.fault = false ∧ (writing 0xA4#8 7#3).blk.wcnt ≠ 0#3) := by decide

theorem witness_CountAddsOne :
    (threeLeaves.blk.fault = false ∧ threeLeaves.blk.tvalid = true) ∧
    (overflowTable.blk.fault = false ∧ overflowTable.blk.tvalid = false ∧
      (readFreq overflowTable.blk 1#8).toNat = 2 ^ 64 - 1) ∧
    (fullTable.blk.fault = false ∧ fullTable.blk.tvalid = false ∧
      (readFreq fullTable.blk 1#8).toNat = 2 ^ 64 - 2 ∧ (readFreq fullTable.blk 255#8).toNat = 0) := by decide +kernel

theorem witness_SetfreqSetsTheCount :
    (threeLeaves.blk.fault = false ∧ threeLeaves.blk.tvalid = true) ∧
    (State.reset.blk.fault = false ∧ State.reset.blk.tvalid = false) := by decide +kernel

theorem witness_QueriesAnswerAndChangeNothing :
    (State.reset.blk.fault = false ∧ State.reset.blk.root = 511#9) ∧
    (threeLeaves.blk.fault = false ∧ threeLeaves.blk.root ≠ 511#9) := by decide +kernel

theorem witness_SecondBuildRaisesSequence : threeLeaves.blk.fault = false ∧ threeLeaves.blk.tvalid = true := by
  decide +kernel

theorem witness_BuildCompletesExactlyWhenTheSumFits :
    (fullTable.blk.fault = false ∧ fullTable.blk.tvalid = false ∧ totalFreq fullTable.blk = 2 ^ 64 - 1) ∧
    (overflowTable.blk.fault = false ∧ overflowTable.blk.tvalid = false ∧ totalFreq overflowTable.blk = 2 ^ 64) ∧
    (State.reset.blk.fault = false ∧ State.reset.blk.tvalid = false ∧ totalFreq State.reset.blk = 0) := by
  decide +kernel

theorem witness_BuiltTreeIsWellFormedUntilReset :
    (tieTable.blk.fault = false ∧ tieTable.blk.tvalid = false ∧
      ∃ t, exec .build tieTable = .next t ∧ t.blk.tvalid = true) ∧
    (Instr.encode 65#8 ≠ .reset ∧ threeLeaves.blk.tvalid = true ∧ TreeOk threeLeaves.blk ∧
      ∃ t, exec (.encode 65#8) threeLeaves = .next t) := by
  obtain ⟨t, h, _⟩ := nextWith_spec (o := exec (.encode 65#8) threeLeaves) (check := fun _ => true) (by decide +kernel)
  exact ⟨⟨rfl, rfl, nextWith_spec (check := fun t => t.blk.tvalid) (by decide +kernel)⟩, by decide, rfl,
    treeOk_threeLeaves, t, h⟩

theorem witness_PopMinTakesTheLeastKey :
    let s : State := { threeLeaves with tmp.pq := [2#9, 3#9] }
    s.tmp.pq ≠ [] ∧ s.tmp.pq.Nodup := by decide

/-- The least and the greatest symbol, and one without a count between them. -/
theorem witness_LeafPhaseMakesTheLeaves :
    let s := table [(0#8, 1#64), (255#8, 1#64)]
    s.blk.nnode = 0#9 ∧ s.tmp.pq = [] ∧ readFreq s.blk 0#8 ≠ 0#64 ∧ readFreq s.blk 255#8 ≠ 0#64 ∧
    (0#8).toNat < (255#8).toNat ∧ readFreq s.blk 7#8 = 0#64 := by decide +kernel

/-- In the tree of V-T1 the leaf of 67 waits while the node at index 3 is made. -/
theorem witness_BuildMergesTheTwoLeast :
    tieTable.blk.fault = false ∧ tieTable.blk.tvalid = false ∧ ∃ t, exec .build tieTable = .next t ∧
      (t.blk.tvalid && t.blk.nleaf == 3#9 && t.blk.nnode == 5#9 && (readNode t.blk 2#9).par == 4#9 &&
        (readNode t.blk 3#9).c0 == 0#9 && (readNode t.blk 3#9).c1 == 1#9) = true :=
  ⟨rfl, rfl, nextWith_spec (by decide +kernel)⟩

theorem witness_TreeIsAFunctionOfFreq :
    tieTable.blk.fault = false ∧ tieTableElsewhere.blk.fault = false ∧ tieTable.blk.tvalid = false ∧
    tieTableElsewhere.blk.tvalid = false ∧ tieTable.blk.freq = tieTableElsewhere.blk.freq ∧
    (∃ t, exec .build tieTable = .next t ∧ t.blk.tvalid = true) ∧
    (∃ t, exec .build tieTableElsewhere = .next t ∧ t.blk.tvalid = true) :=
  ⟨rfl, rfl, rfl, rfl, rfl, nextWith_spec (check := fun t => t.blk.tvalid) (by decide +kernel),
    nextWith_spec (check := fun t => t.blk.tvalid) (by decide +kernel)⟩

theorem witness_EmptyTableBuildsNoTree :
    State.reset.blk.fault = false ∧ State.reset.blk.tvalid = false ∧ ∀ a : Sym, readFreq State.reset.blk a = 0#64 :=
  ⟨rfl, rfl, fun a => by simp [readFreq, State.reset, State.resetUnder, Block.reset]⟩

theorem readFreq_one (a x : Sym) (n : Count) : readFreq (table [(a, n)]).blk x = if a = x then n else 0#64 := by
  simp [table, readFreq, setFreq, State.reset, State.resetUnder, Block.reset, Vector.getElem_set, BitVec.toNat_inj]

/-- What the statement on one symbol asks of a table. -/
def OneCount (s : State) (a : Sym) : Prop :=
  s.blk.fault = false ∧ s.blk.tvalid = false ∧ readFreq s.blk a ≠ 0#64 ∧ ∀ x : Sym, x ≠ a → readFreq s.blk x = 0#64

theorem oneCount_table (a : Sym) (n : Count) (hn : n ≠ 0#64) : OneCount (table [(a, n)]) a :=
  ⟨rfl, rfl, by rw [readFreq_one, if_pos rfl]; exact hn, fun x hx => by rw [readFreq_one, if_neg hx.symm]⟩

/-- The least and the greatest symbol, with the least and the greatest count. -/
theorem witness_OneSymbolTreeHasASyntheticRoot :
    OneCount (table [(0#8, 1#64)]) 0#8 ∧ OneCount (table [(255#8, 0xFFFFFFFFFFFFFFFF#64)]) 255#8 :=
  ⟨oneCount_table 0#8 1#64 (by decide), oneCount_table 255#8 0xFFFFFFFFFFFFFFFF#64 (by decide)⟩

theorem witness_GettotalIsTheSumOfTheCounts :
    fullTable.blk.fault = false ∧ fullTable.blk.tvalid = false ∧
    ∃ t, exec .build fullTable = .next t ∧ t.blk.tvalid = true :=
  ⟨rfl, rfl, nextWith_spec (check := fun t => t.blk.tvalid) (by decide +kernel)⟩

theorem witness_CodeIsThePathFromTheRoot : TreeOk threeLeaves.blk ∧ readLeaf threeLeaves.blk 66#8 ≠ 511#9 :=
  ⟨treeOk_threeLeaves, by decide +kernel⟩

theorem witness_CodesArePrefixFree :
    TreeOk threeLeaves.blk ∧ readLeaf threeLeaves.blk 65#8 ≠ 511#9 ∧ readLeaf threeLeaves.blk 67#8 ≠ 511#9 ∧
    65#8 ≠ 67#8 := ⟨treeOk_threeLeaves, by decide +kernel⟩

theorem witness_CodeLengthIsBounded :
    (TreeOk oneLeaf.blk ∧ readLeaf oneLeaf.blk 65#8 ≠ 511#9 ∧ oneLeaf.blk.nleaf.toNat = 1) ∧
    (TreeOk threeLeaves.blk ∧ readLeaf threeLeaves.blk 65#8 ≠ 511#9 ∧ 2 ≤ threeLeaves.blk.nleaf.toNat) :=
  ⟨⟨treeOk_oneLeaf, by decide +kernel⟩, treeOk_threeLeaves, by decide +kernel⟩

theorem witness_EncodeEmitsTheCode :
    threeLeaves.blk.fault = false ∧ threeLeaves.blk.tvalid = true ∧ TreeOk threeLeaves.blk ∧
    readLeaf threeLeaves.blk 65#8 ≠ 511#9 := ⟨rfl, rfl, treeOk_threeLeaves, by decide +kernel⟩

theorem witness_CodecFaultsTouchNoBit :
    (State.reset.blk.fault = false ∧ State.reset.blk.tvalid = false) ∧
    (({ State.reset with blk.tvalid := true } : State).blk.fault = false ∧
      ({ State.reset with blk.tvalid := true } : State).blk.tvalid = true ∧
      ({ State.reset with blk.tvalid := true } : State).blk.root = 511#9) ∧
    (threeLeaves.blk.fault = false ∧ threeLeaves.blk.tvalid = true ∧ threeLeaves.blk.root ≠ 511#9 ∧
      readLeaf threeLeaves.blk 8#8 = 511#9) := by decide +kernel

theorem witness_EncodeIsASequenceOfWrbits :
    (threeLeaves.blk.fault = false ∧ threeLeaves.blk.tvalid = true ∧ TreeOk threeLeaves.blk ∧
      readLeaf threeLeaves.blk 67#8 ≠ 511#9) ∧
    (Inv threeLeaves ∧ threeLeaves.blk.fault = false ∧ threeLeaves.blk.tvalid = true ∧ threeLeaves.blk.wcnt = 0#3 ∧
      ∀ a ∈ [65#8, 67#8, 66#8], readLeaf threeLeaves.blk a ≠ 511#9) :=
  ⟨⟨rfl, rfl, treeOk_threeLeaves, by decide +kernel⟩, inv_threeLeaves, rfl, rfl, rfl, by decide +kernel⟩

/-- The readers of V-E2 and V-E4: no bit left, a code in front, one bit in mid-path, a bit that leads nowhere. -/
theorem witness_DecodeReadsOneCode :
    (∀ n : BitVec 4, TreeOk (decoding threeLeaves 0x28#8 n []).blk ∧ TreeOk (decoding oneLeaf 0x40#8 n []).blk) ∧
    (threeLeaves.blk.fault = false ∧ threeLeaves.blk.tvalid = true ∧ threeLeaves.blk.root ≠ 511#9) ∧
    (oneLeaf.blk.fault = false ∧ oneLeaf.blk.tvalid = true ∧ oneLeaf.blk.root ≠ 511#9) ∧
    bitsToRead (decoding threeLeaves 0x28#8 0#4 []) = [] ∧
    (readLeaf threeLeaves.blk 65#8 ≠ 511#9 ∧ bitsToRead (decoding threeLeaves 0x28#8 8#4 []) =
      code threeLeaves.blk 65#8 ++ [true, false, true, false, false, false]) ∧
    (bitsToRead (decoding threeLeaves 0x28#8 1#4 []) ≠ [] ∧
      ∀ a : Sym, readLeaf threeLeaves.blk a ≠ 511#9 →
        ¬ code threeLeaves.blk a <+: bitsToRead (decoding threeLeaves 0x28#8 1#4 [])) ∧
    (bitsToRead (decoding oneLeaf 0x40#8 7#4 []) ≠ [] ∧
      ∀ a : Sym, readLeaf oneLeaf.blk a ≠ 511#9 →
        ¬ code oneLeaf.blk a <+: bitsToRead (decoding oneLeaf 0x40#8 7#4 [])) :=
  ⟨fun _ => ⟨treeOk_decoding treeOk_threeLeaves _ _ _, treeOk_decoding treeOk_oneLeaf _ _ _⟩, by decide +kernel⟩

/-- The three symbols of V-E1 from the byte it emits, with its three padding bits left over. -/
theorem witness_DecodesInvertEncodes :
    TreeOk (decoding threeLeaves 0x00#8 0#4 [0x28#8]).blk ∧
    threeLeaves.blk.fault = false ∧ threeLeaves.blk.tvalid = true ∧ (0#4).toNat ≤ 8 ∧
    (∀ a ∈ [65#8, 67#8, 66#8], readLeaf threeLeaves.blk a ≠ 511#9) ∧
    bitsToRead (decoding threeLeaves 0x00#8 0#4 [0x28#8]) =
      [65#8, 67#8, 66#8].flatMap (code threeLeaves.blk) ++ [false, false, false] :=
  ⟨treeOk_decoding treeOk_threeLeaves _ _ _, by decide +kernel⟩

/-- One bit, written and read back. -/
theorem witness_BitWrittenIsBitRead :
    (Inv threeLeaves ∧ threeLeaves.blk.fault = false ∧ threeLeaves.blk.wcnt = 0#3) ∧
    (∃ t, execAll ([true].map (fun b => .wrbit (if b then 1#8 else 0#8)) ++ [.flush]) threeLeaves = .next t ∧
      (t.env.snk == threeLeaves.env.snk ++ [0x80#8]) = true) ∧
    ((overSource [0x80#8]).blk.fault = false ∧ (overSource [0x80#8]).blk.rcnt = 0#4 ∧
      (overSource [0x80#8]).env.src.drop (overSource [0x80#8]).env.spos = [0x80#8]) :=
  ⟨⟨inv_threeLeaves, rfl, rfl⟩, nextWith_spec (by decide +kernel), rfl, rfl, rfl⟩

theorem witness_WordWrittenIsWordRead :
    State.reset.blk.fault = false ∧ (overSource [0xE8#8, 3#8, 0#8, 0#8, 0#8, 0#8, 0#8, 0#8, 9#8]).blk.fault = false ∧
    (overSource [0xE8#8, 3#8, 0#8, 0#8, 0#8, 0#8, 0#8, 0#8, 9#8]).cfg = State.reset.cfg ∧
    nextWith (exec (.wrword 1000#64) State.reset) (fun t =>
      (overSource [0xE8#8, 3#8, 0#8, 0#8, 0#8, 0#8, 0#8, 0#8, 9#8]).env.src.drop 0 == t.env.snk ++ [9#8]) = true := by
  decide

/-- One command of each end: OK, EOD, FAULTED, a fault. -/
theorem witness_CommandEndsInOneOfFourWays :
    (∃ t, acceptCommand 0x00000000000000000000#80 State.reset = .next t ∧ answered t 0x00#8 0#64 = true) ∧
    (∃ t, acceptCommand 0x10000000000000000000#80 State.reset = .next t ∧ answered t 0x01#8 0#64 = true) ∧
    (∃ t, acceptCommand 0x00000000000000000000#80 faulted = .next t ∧ answered t 0x02#8 0#64 = true) ∧
    (∃ t, acceptCommand 0x13000000000000000000#80 State.reset = .next t ∧ answered t 0x2F#8 0#64 = true) :=
  ⟨nextWith_spec (by decide), nextWith_spec (by decide), nextWith_spec (by decide), nextWith_spec (by decide)⟩

theorem witness_OneResponsePerCommand :
    ∃ t, acceptCommand 0x00000000000000000000#80 State.reset = .next t ∧ answered t 0x00#8 0#64 = true :=
  witness_CommandEndsInOneOfFourWays.1

/-- The four commands that can answer EOD. -/
theorem witness_EodExactlyAtTheEndOfData :
    (∀ i ∈ [Instr.rdbit, .rdbyte, .rdword], State.reset.blk.fault = false ∧
      nextWith (exec i State.reset) (fun t => answered t 0x01#8 0#64) = true) ∧
    (threeLeaves.blk.fault = false ∧ nextWith (exec .decode threeLeaves) (fun t => answered t 0x01#8 0#64) = true) := by
  decide +kernel

theorem witness_FaultAndCauseHoldUntilReset :
    faulted.blk.fault = true ∧
    (decode 0x10000000000000000000#80 ≠ .ok .reset ∧
      ∃ t, acceptCommand 0x10000000000000000000#80 faulted = .next t ∧ t.blk.fault = true) ∧
    (decode 0x01000000000000000000#80 = .ok .reset ∧
      ∃ t, acceptCommand 0x01000000000000000000#80 faulted = .next t ∧ (!t.blk.fault) = true) :=
  ⟨rfl, ⟨by decide, nextWith_spec (check := fun t => t.blk.fault) (by decide)⟩, by decide, nextWith_spec (by decide)⟩

theorem witness_TableAndTreeAreFrozenAfterBuild :
    threeLeaves.blk.tvalid = true ∧ decode 0x30410000000000000000#80 ≠ .ok .reset ∧
    ∃ t, acceptCommand 0x30410000000000000000#80 threeLeaves = .next t ∧ answered t 0x23#8 0#64 = true :=
  ⟨rfl, by decide, nextWith_spec (by decide +kernel)⟩

/-- NOP is none of the commands that a clause names. -/
theorem witness_EachRegisterHasItsWriters :
    (∃ t, exec .nop State.reset = .next t ∧ answered t 0x00#8 0#64 = true) ∧ (∀ a, Instr.nop ≠ .wrbit a) ∧
    (∀ a, Instr.nop ≠ .encode a) ∧ (∀ a, Instr.nop ≠ .count a) ∧ (∀ a d, Instr.nop ≠ .setfreq a d) ∧
    Instr.nop ≠ .build ∧ Instr.nop ≠ .flush :=
  ⟨nextWith_spec (by decide), fun _ h => (by cases h), fun _ h => (by cases h), fun _ h => (by cases h),
    fun _ _ h => (by cases h), by decide, by decide⟩

theorem witness_SinkGrowsAndSourceAdvances :
    (overSource [1#8]).env.spos ≤ (overSource [1#8]).env.src.length ∧
    ∃ t, acceptCommand 0x11000000000000000000#80 (overSource [1#8]) = .next t ∧ answered t 0x00#8 1#64 = true :=
  ⟨by decide, nextWith_spec (by decide)⟩

theorem witness_ResetGivesTheResetState : (waiting .pinReset faulted).port.inputs = .pinReset :: [] := rfl

theorem witness_PinResetAbandonsTheCommand :
    let s := waiting (.pinResetDuring 0x11000000000000000000#80 1) (overSource [7#8])
    s.port.inputs = .pinResetDuring 0x11000000000000000000#80 1 :: [] ∧ s.env.spos ≤ s.env.src.length ∧
    ∃ u, acceptCommand 0x11000000000000000000#80 { s with port := { s.port with inputs := [] } } = .next u ∧
      answered u 0x00#8 7#64 = true := ⟨rfl, by decide, nextWith_spec (by decide)⟩

theorem witness_StepKeepsTheInvariant :
    Inv (waiting (.command 0x50410000000000000000#80) threeLeaves) ∧
    ∃ t, step (waiting (.command 0x50410000000000000000#80) threeLeaves) = .next t ∧ answered t 0x00#8 2#64 = true :=
  ⟨inv_waiting inv_threeLeaves _, nextWith_spec (by decide +kernel)⟩

theorem witness_InvariantMeansNoStepStops : Inv (waiting (.command 0x51000000000000000000#80) threeLeaves) :=
  inv_waiting inv_threeLeaves _

theorem witness_DecompressInvertsCompress :
    ([] : List Byte).length < 2 ^ 64 ∧ [0x41#8, 0x42#8].length < 2 ^ 64 ∧ faulted.cfg = State.reset.cfg := by decide

theorem witness_CompressedStreamLayout : [0x41#8] ≠ [] ∧ [0x41#8].length < 2 ^ 64 := by decide

/-- What a host sequence ends with. -/
def runEnds (run : HostRun) (r : HostResult) : Bool :=
  match run with
  | .next (q, _) => q == r
  | _ => false

theorem runEnds_spec {run : HostRun} {r : HostResult} (h : runEnds run r = true) : ∃ t, run = .next (r, t) := by
  unfold runEnds at h
  split at h
  · rename_i q t
    exact ⟨t, by rw [eq_of_beq h]⟩
  · cases h

theorem witness_CompressOutputIsAFunctionOfTheInput :
    faulted.cfg = State.reset.cfg ∧ ∃ t, compressJob [] State.reset = .next (.success, t) :=
  ⟨rfl, runEnds_spec (by decide +kernel)⟩

theorem witness_EmptyStreamIsTheOnlyShortStream :
    ([] : List Byte).length < 11 ∧ ∃ t, decompressJob [] State.reset = .next (.success, t) :=
  ⟨by decide, runEnds_spec (by decide)⟩

/-- A header that ends after its first byte. -/
theorem witness_FailedSequenceLeavesNoOutput :
    ∃ t, decompressJob [0x00#8] State.reset = .next (.failure 0x11#8, t) := runEnds_spec (by decide)

end Sys2Proof.Tests
end

section
/-! SUPPORT. No command reads the port (R8, R44): every operation commutes with exchanging it, so a command run over any
port makes the same next state and the same one response. The operations also keep the parameters and the content of the
source. -/

namespace Sys2Proof.Machine

/-! ### Exchanging the port -/

/-- The same state with other pending inputs and earlier responses around it. -/
def State.withPort (port : Port) (s : State) : State := { s with port := port }

@[simp] theorem withPort_blk (p : Port) (s : State) : (s.withPort p).blk = s.blk := rfl
@[simp] theorem withPort_tmp (p : Port) (s : State) : (s.withPort p).tmp = s.tmp := rfl
@[simp] theorem withPort_env (p : Port) (s : State) : (s.withPort p).env = s.env := rfl
@[simp] theorem withPort_cfg (p : Port) (s : State) : (s.withPort p).cfg = s.cfg := rfl
@[simp] theorem system_withPort (p : Port) (s : State) : (s.withPort p).system = s.system := rfl
@[simp] theorem system_pushRsp (st : BitVec 8) (rd : BitVec 64) (s : State) : (pushRsp st rd s).system = s.system := rfl

/-- The state that `transact` runs is the state over the empty port. -/
theorem around_eq_withPort (p : Port) (s : State) : State.around s.cfg s.env.src p s.system = s.withPort p := rfl

/-! ### Operations that answer a state commute with it -/

section

variable (p : Port) (s : State)

theorem resetBlock_withPort : resetBlock (s.withPort p) = (resetBlock s).withPort p := rfl
theorem srcDrain_withPort : srcDrain (s.withPort p) = (srcDrain s).withPort p := rfl
theorem snkPut_withPort (b : Byte) : snkPut b (s.withPort p) = (snkPut b s).withPort p := rfl
theorem snkFlush_withPort : snkFlush (s.withPort p) = (snkFlush s).withPort p := rfl
theorem setWriter_withPort (w : BitVec 8) (n : BitVec 3) :
    setWriter w n (s.withPort p) = (setWriter w n s).withPort p := rfl
theorem setFreq_withPort (a : Sym) (n : Count) : setFreq a n (s.withPort p) = (setFreq a n s).withPort p := rfl
theorem setLeaf_withPort (a : Sym) (i : NodeIdx) : setLeaf a i (s.withPort p) = (setLeaf a i s).withPort p := rfl
theorem setPar_withPort (i r : NodeIdx) : setPar i r (s.withPort p) = (setPar i r s).withPort p := rfl
theorem allocNode_withPort (n : Node) : allocNode n (s.withPort p) = (allocNode n s).withPort p := rfl
theorem setNnode_withPort (n : NodeIdx) : setNnode n (s.withPort p) = (setNnode n s).withPort p := rfl
theorem setNleaf_withPort (n : BitVec 9) : setNleaf n (s.withPort p) = (setNleaf n s).withPort p := rfl
theorem setRoot_withPort (r : NodeIdx) : setRoot r (s.withPort p) = (setRoot r s).withPort p := rfl
theorem setTvalid_withPort : setTvalid (s.withPort p) = (setTvalid s).withPort p := rfl
theorem setPq_withPort (q : List NodeIdx) : setPq q (s.withPort p) = (setPq q s).withPort p := rfl
theorem pqInsert_withPort (i : NodeIdx) : pqInsert i (s.withPort p) = (pqInsert i s).withPort p := rfl
theorem setClen_withPort (n : BitVec 8) : setClen n (s.withPort p) = (setClen n s).withPort p := rfl
theorem pushCstk_withPort (b : Bool) : pushCstk b (s.withPort p) = (pushCstk b s).withPort p := rfl
theorem readCstk_withPort (i : BitVec 8) : readCstk (s.withPort p) i = readCstk s i := rfl
theorem setCursor_withPort (i : NodeIdx) (n : BitVec 8) :
    setCursor i n (s.withPort p) = (setCursor i n s).withPort p := rfl

theorem snkPutAll_withPort (bs : List Byte) : snkPutAll bs (s.withPort p) = (snkPutAll bs s).withPort p := by
  rw [snkPutAll_eq, snkPutAll_eq]; rfl

theorem wrBit_withPort (b : Bool) : wrBit b (s.withPort p) = (wrBit b s).withPort p := by
  by_cases h : s.blk.wcnt = 7#3
  · rw [wrBit_emits b h, wrBit_emits (s := s.withPort p) b h]; rfl
  · rw [wrBit_pending b h, wrBit_pending (s := s.withPort p) b h]; rfl

/-! ### Operations that answer a value beside the state -/

theorem srcNext_withPort : srcNext (s.withPort p) = ((srcNext s).1, (srcNext s).2.withPort p) := by
  obtain ⟨h, e⟩ | ⟨h, e⟩ := srcNext_cases s
  · rw [e, srcNext_exhausted (s := s.withPort p) h]
  · rw [e, srcNext_byte (s := s.withPort p) h]; rfl

theorem srcNextN_withPort (n : Nat) :
    srcNextN n (s.withPort p) = ((srcNextN n s).1, (srcNextN n s).2.withPort p) := by
  induction n generalizing s with
  | zero => rfl
  | succ n ih =>
    rw [srcNextN, srcNextN, srcNext_withPort]
    rcases srcNext s with ⟨_ | b, s1⟩
    · rfl
    · simp only [ih]

theorem rdBit_withPort : rdBit (s.withPort p) = ((rdBit s).1, (rdBit s).2.withPort p) := by
  obtain ⟨h, e⟩ | ⟨hs, h, e⟩ | ⟨h, hs, e⟩ := rdBit_cases s
  · rw [e, rdBit_buffered (s := s.withPort p) h]; rfl
  · rw [e, rdBit_refill (s := s.withPort p) h hs]; rfl
  · rw [e, rdBit_eod (s := s.withPort p) h hs]

/-- `PopMin()` reads PQ and the arena only. -/
theorem popMin_withPort : popMin (s.withPort p) = (popMin s).map (fun r => (r.1, r.2.withPort p)) := by
  unfold popMin
  rw [withPort_tmp]
  cases s.tmp.pq with
  | nil => rfl
  | cons i is => rfl

/-! ### The phases of BUILD -/

theorem leafStep_withPort (a : Sym) : leafStep (s.withPort p) a = (leafStep s a).withPort p := by
  by_cases h : readFreq s.blk a = 0#64
  · simp only [leafStep, withPort_blk, h, if_true, setLeaf_withPort]
  · simp only [leafStep, withPort_blk, h, if_false, setLeaf_withPort, pqInsert_withPort, allocNode_withPort]

theorem leafPhase_withPort : leafPhase (s.withPort p) = (leafPhase s).withPort p := by
  have fold : allSyms.foldl leafStep (s.withPort p) = (allSyms.foldl leafStep s).withPort p :=
    List.foldl_hom (State.withPort p) (fun s a => leafStep_withPort p s a)
  simp only [leafPhase, fold, withPort_blk, setNleaf_withPort]

theorem mergeStep_withPort : mergeStep (s.withPort p) = ((mergeStep s).1, (mergeStep s).2.withPort p) := by
  unfold mergeStep
  rw [popMin_withPort]
  rcases popMin s with _ | ⟨a, s1⟩
  · rfl
  · simp only [Option.map_some, popMin_withPort]
    rcases popMin s1 with _ | ⟨b, s2⟩
    · rfl
    · simp only [Option.map_some, withPort_blk]
      by_cases h : (readNode s2.blk a).count.toNat + (readNode s2.blk b).count.toNat > 2 ^ 64 - 1
      · simp only [h, if_true]
      · simp only [h, if_false, allocNode_withPort, setPar_withPort, pqInsert_withPort]

theorem mergeLoop_withPort (n : Nat) :
    mergeLoop n (s.withPort p) = ((mergeLoop n s).1, (mergeLoop n s).2.withPort p) := by
  induction n generalizing s with
  | zero => rfl
  | succ n ih =>
    simp only [mergeLoop, withPort_tmp, mergeStep_withPort]
    split
    · rcases mergeStep s with ⟨_ | c, s1⟩
      · exact ih s1
      · rfl
    · rfl

theorem rootPhase_withPort : rootPhase (s.withPort p) = (rootPhase s).withPort p := by
  unfold rootPhase
  rw [popMin_withPort]
  rcases popMin s with _ | ⟨r, s1⟩
  · rfl
  · simp only [Option.map_some, withPort_blk]
    by_cases h : (readNode s1.blk r).kind = .leaf
    · simp only [h, if_true, allocNode_withPort, setPar_withPort, setRoot_withPort]
    · simp only [h, if_false, setRoot_withPort]

/-! ### The walks of ENCODE -/

theorem pushCode_withPort (k : Nat) (n : NodeIdx) :
    pushCode k n (s.withPort p) = (pushCode k n s).map (State.withPort p) := by
  induction k generalizing n s with
  | zero =>
    simp only [pushCode, withPort_blk]
    by_cases h : (readNode s.blk n).par = nilIdx
    · simp only [h, if_true, Option.map_some]
    · simp only [h, if_false, Option.map_none]
  | succ k ih =>
    simp only [pushCode, withPort_blk, pushCstk_withPort, ih]
    by_cases h : (readNode s.blk n).par = nilIdx
    · simp only [h, if_true, Option.map_some]
    · simp only [h, if_false]

theorem emitCode_withPort (k : Nat) : emitCode k (s.withPort p) = (emitCode k s).withPort p := by
  induction k generalizing s with
  | zero => rfl
  | succ k ih =>
    simp only [emitCode, withPort_tmp, setClen_withPort, readCstk_withPort, wrBit_withPort, ih]

end

/-! ### The parameters and the content of the source stay -/

/-- The arguments of R44 that ride in the state are the same: the parameters and the content of the source. -/
def SameArguments (s t : State) : Prop := t.cfg = s.cfg ∧ t.env.src = s.env.src

theorem SameArguments.refl (s : State) : SameArguments s s := ⟨rfl, rfl⟩

theorem SameArguments.trans {s t u : State} (h : SameArguments s t) (h' : SameArguments t u) : SameArguments s u :=
  ⟨h'.1.trans h.1, h'.2.trans h.2⟩

theorem SameButTree.sameArguments {s t : State} (h : SameButTree s t) : SameArguments s t := by
  obtain ⟨_, _, _, _, _, _, rfl⟩ := h
  exact .refl s

/-- BUILD ends with TVALID <- 1 (R170). -/
theorem SameButTree.setTvalid {s t : State} (h : SameButTree s t) : SameArguments s (setTvalid t) := h.sameArguments

theorem sameArguments_srcNext (s : State) : SameArguments s (srcNext s).2 := by
  obtain ⟨_, e⟩ | ⟨_, e⟩ := srcNext_cases s
  · rw [e]; exact .refl s
  · rw [e]; exact .refl s

theorem sameArguments_srcNextN (n : Nat) (s : State) : SameArguments s (srcNextN n s).2 := by
  induction n generalizing s with
  | zero => exact .refl s
  | succ n ih =>
    have first := sameArguments_srcNext s
    rw [srcNextN]
    generalize srcNext s = r at first ⊢
    obtain ⟨_ | b, s1⟩ := r
    · exact first
    · exact first.trans (ih s1)

theorem sameArguments_rdBit (s : State) : SameArguments s (rdBit s).2 := by
  obtain ⟨_, e⟩ | ⟨_, _, e⟩ | ⟨_, _, e⟩ := rdBit_cases s
  · rw [e]; exact .refl s
  · rw [e]; exact .refl s
  · rw [e]; exact .refl s

theorem sameArguments_snkPutAll (bs : List Byte) (s : State) : SameArguments s (snkPutAll bs s) := by
  rw [snkPutAll_eq]; exact .refl s

theorem sameArguments_wrBit (b : Bool) (s : State) : SameArguments s (wrBit b s) := by
  obtain ⟨_, _, _, e⟩ := wrBit_frame b s
  rw [e]; exact .refl s

theorem sameArguments_pushCode {k : Nat} {n : NodeIdx} {s t : State} (h : pushCode k n s = some t) :
    SameArguments s t := by
  obtain ⟨_, _, rfl⟩ := pushCode_frame h
  exact .refl s

theorem sameArguments_emitCode (k : Nat) (s : State) : SameArguments s (emitCode k s) := by
  obtain ⟨_, _, _, _, e⟩ := emitCode_frame k s
  rw [e]; exact .refl s

end Sys2Proof.Machine
end

section
/-! Every command answers once, whatever the port is, and so accepting a word is `transact` (R8, R44). -/

namespace Sys2Proof.Machine

/-! ### One response under every port -/

/-- The outcome `f port` of a command begun at `s` over `port` depends on the port in one way only: under every port the
same response is appended to it and the same state stands around it, with the arguments of `s`; or under every port the
machine stops with the same fault. -/
def AnswersOnce (s : State) (f : Port → Host.Outcome State Fault Refusal) : Prop :=
  (∃ t st rd, SameArguments s t ∧ ∀ p, f p = respond st rd (t.withPort p)) ∨ (∃ e, ∀ p, f p = .fault e)

namespace AnswersOnce

variable {s t : State} {f g : Port → Host.Outcome State Fault Refusal}

theorem respond {st : BitVec 8} {rd : BitVec 64} (same : SameArguments s t) :
    AnswersOnce s (fun p => Machine.respond st rd (t.withPort p)) :=
  .inl ⟨t, st, rd, same, fun _ => rfl⟩

theorem raise {c : Cause} (same : SameArguments s t) : AnswersOnce s (fun p => Machine.raise c (t.withPort p)) :=
  respond (t := enterFault c t) same

theorem fault (e : Fault) : AnswersOnce s (fun _ => .fault e) := .inr ⟨e, fun _ => rfl⟩

/-- A branch on what is no part of the port; the way to decide it may name the port. -/
theorem ite {c : Prop} {dec : Port → Decidable c} (hf : AnswersOnce s f) (hg : AnswersOnce s g) :
    AnswersOnce s (fun p => haveI := dec p; if c then f p else g p) := by
  by_cases h : c
  · simpa only [if_pos h] using hf
  · simpa only [if_neg h] using hg

/-- The test of R98 step 3 reads FAULT, and the refusal of R243 is one response. -/
theorem whenLive (hf : AnswersOnce s f) : AnswersOnce s (fun p => Machine.whenLive (s.withPort p) (f p)) :=
  ite (c := s.blk.fault = true) (respond (.refl s)) hf

/-- A command that goes on from a state with the same arguments. -/
theorem of_sameArguments (h : AnswersOnce t f) (same : SameArguments s t) : AnswersOnce s f := by
  obtain ⟨u, st, rd, same', e⟩ | stop := h
  · exact .inl ⟨u, st, rd, same.trans same', e⟩
  · exact .inr stop

end AnswersOnce

/-! ### The commands -/

section

variable (s : State)

theorem execNop_answersOnce : AnswersOnce s (fun p => execNop (s.withPort p)) := .whenLive (.respond (.refl s))

theorem execReset_answersOnce : AnswersOnce s (fun p => execReset (s.withPort p)) := by
  simp only [execReset, resetBlock_withPort]
  exact .respond (.refl s)

theorem execRdstat_answersOnce : AnswersOnce s (fun p => execRdstat (s.withPort p)) := by
  simp only [execRdstat, withPort_blk]
  exact .respond (.refl s)

theorem execRdbit_answersOnce : AnswersOnce s (fun p => execRdbit (s.withPort p)) := by
  have same := sameArguments_rdBit s
  simp only [execRdbit, rdBit_withPort]
  generalize rdBit s = r at same ⊢
  obtain ⟨_ | bit, s1⟩ := r
  · exact .whenLive (.respond same)
  · exact .whenLive (.respond same)

theorem execRdbyte_answersOnce : AnswersOnce s (fun p => execRdbyte (s.withPort p)) := by
  have same := sameArguments_srcNext s
  simp only [execRdbyte, srcNext_withPort]
  generalize srcNext s = r at same ⊢
  obtain ⟨_ | b, s1⟩ := r
  · exact .whenLive (.respond same)
  · exact .whenLive (.respond same)

theorem execRdword_answersOnce : AnswersOnce s (fun p => execRdword (s.withPort p)) := by
  simp only [execRdword, withPort_env, withPort_cfg, srcDrain_withPort, srcNextN_withPort]
  exact .whenLive (.ite (.respond (.refl s)) (.ite (.raise (.refl s)) (.respond (sameArguments_srcNextN wordBytes s))))

theorem execWrbit_answersOnce (a : BitVec 8) : AnswersOnce s (fun p => execWrbit a (s.withPort p)) := by
  simp only [execWrbit, wrBit_withPort]
  exact .whenLive (.respond (sameArguments_wrBit _ s))

theorem execWrbyte_answersOnce (d : BitVec 64) : AnswersOnce s (fun p => execWrbyte d (s.withPort p)) := by
  simp only [execWrbyte, snkPut_withPort]
  exact .whenLive (.respond (.refl s))

theorem execWrword_answersOnce (d : BitVec 64) : AnswersOnce s (fun p => execWrword d (s.withPort p)) := by
  simp only [execWrword, withPort_cfg, snkPutAll_withPort]
  exact .whenLive (.respond (sameArguments_snkPutAll _ s))

theorem execFlush_answersOnce : AnswersOnce s (fun p => execFlush (s.withPort p)) := by
  refine .whenLive ?_
  by_cases h : s.blk.wcnt = 0#3
  · simp only [withPort_blk, h, if_true, snkFlush_withPort]
    exact .respond (.refl s)
  · simp only [withPort_blk, h, if_false, snkPut_withPort, setWriter_withPort, snkFlush_withPort]
    exact .respond (.refl s)

theorem execCount_answersOnce (a : Sym) : AnswersOnce s (fun p => execCount a (s.withPort p)) := by
  simp only [execCount, withPort_blk, setFreq_withPort]
  exact .whenLive (.ite (.raise (.refl s)) (.ite (.raise (.refl s)) (.respond (.refl s))))

theorem execSetfreq_answersOnce (a : Sym) (d : Count) : AnswersOnce s (fun p => execSetfreq a d (s.withPort p)) := by
  simp only [execSetfreq, withPort_blk, setFreq_withPort]
  exact .whenLive (.ite (.raise (.refl s)) (.respond (.refl s)))

theorem execGetfreq_answersOnce (a : Sym) : AnswersOnce s (fun p => execGetfreq a (s.withPort p)) := by
  simp only [execGetfreq, withPort_blk]
  exact .whenLive (.respond (.refl s))

theorem execBuild_answersOnce : AnswersOnce s (fun p => execBuild (s.withPort p)) := by
  have leaves : SameButTree s (leafPhase (setPq [] (setNnode 0#9 s))) :=
    ((sameButTree_setNnode 0#9 s).trans (sameButTree_setPq [] _)).trans (sameButTree_leafPhase _)
  have merged := leaves.trans (sameButTree_mergeLoop 255 _)
  simp only [execBuild, withPort_blk, setNnode_withPort, setPq_withPort, leafPhase_withPort, setRoot_withPort,
    setTvalid_withPort, mergeLoop_withPort]
  generalize leafPhase (setPq [] (setNnode 0#9 s)) = s1 at leaves merged ⊢
  refine .whenLive (.ite (.raise (.refl s)) (.ite (.respond (leaves.trans (sameButTree_setRoot _ s1)).setTvalid) ?_))
  generalize mergeLoop 255 s1 = r at merged ⊢
  obtain ⟨_ | c, s2⟩ := r
  · simp only [rootPhase_withPort, setTvalid_withPort]
    exact .respond (merged.trans (sameButTree_rootPhase s2)).setTvalid
  · exact .raise merged.sameArguments

theorem execGetnleaf_answersOnce : AnswersOnce s (fun p => execGetnleaf (s.withPort p)) := by
  simp only [execGetnleaf, withPort_blk]
  exact .whenLive (.respond (.refl s))

theorem execGettotal_answersOnce : AnswersOnce s (fun p => execGettotal (s.withPort p)) := by
  simp only [execGettotal, withPort_blk]
  exact .whenLive (.ite (.respond (.refl s)) (.respond (.refl s)))

theorem execEncode_answersOnce (a : Sym) : AnswersOnce s (fun p => execEncode a (s.withPort p)) := by
  simp only [execEncode, withPort_blk, setClen_withPort, pushCode_withPort]
  refine .whenLive (.ite (.raise (.refl s)) (.ite (.raise (.refl s)) ?_))
  cases h : pushCode maxDepth (readLeaf s.blk a) (setClen 0#8 s) with
  | none => exact .fault .encodeStackFull
  | some s1 =>
    have walked : SameArguments (setClen 0#8 s) s1 := sameArguments_pushCode h
    simp only [Option.map_some, withPort_tmp, emitCode_withPort]
    exact .respond (walked.trans (sameArguments_emitCode _ s1))

/-- The descent goes on over the rest of the bits, or ends with one response. -/
theorem descend_answersOnce (k : Nat) : AnswersOnce s (fun p => descend k (s.withPort p)) := by
  induction k generalizing s with
  | zero => exact .fault .decodeTooDeep
  | succ k ih =>
    have same := sameArguments_rdBit s
    simp only [descend, rdBit_withPort]
    generalize rdBit s = r at same ⊢
    obtain ⟨_ | bit, s1⟩ := r
    · simp only [withPort_tmp]
      exact .ite (.respond same) (.raise same)
    · simp only [withPort_blk, withPort_tmp, setCursor_withPort]
      exact .ite (.raise same) (.ite (.respond same) (.of_sameArguments (ih _) same))

theorem execDecode_answersOnce : AnswersOnce s (fun p => execDecode (s.withPort p)) := by
  simp only [execDecode, withPort_blk, setCursor_withPort]
  exact .whenLive (.ite (.raise (.refl s)) (descend_answersOnce (setCursor s.blk.root 0#8 s) maxDepth))

/-- One case per row of R95. -/
theorem exec_answersOnce (i : Instr) : AnswersOnce s (fun p => exec i (s.withPort p)) := by
  cases i with
  | nop => exact execNop_answersOnce s
  | reset => exact execReset_answersOnce s
  | rdstat => exact execRdstat_answersOnce s
  | rdbit => exact execRdbit_answersOnce s
  | rdbyte => exact execRdbyte_answersOnce s
  | rdword => exact execRdword_answersOnce s
  | wrbit a => exact execWrbit_answersOnce s a
  | wrbyte d => exact execWrbyte_answersOnce s d
  | wrword d => exact execWrword_answersOnce s d
  | flush => exact execFlush_answersOnce s
  | count a => exact execCount_answersOnce s a
  | setfreq a d => exact execSetfreq_answersOnce s a d
  | getfreq a => exact execGetfreq_answersOnce s a
  | build => exact execBuild_answersOnce s
  | getnleaf => exact execGetnleaf_answersOnce s
  | gettotal => exact execGettotal_answersOnce s
  | encode a => exact execEncode_answersOnce s a
  | decode => exact execDecode_answersOnce s

/-- An illegal word is refused or raises ILLEGAL_CMD (R97), with one response either way. -/
theorem acceptCommand_answersOnce (cw : CmdWord) : AnswersOnce s (fun p => acceptCommand cw (s.withPort p)) := by
  unfold acceptCommand
  cases decode cw with
  | ok i => exact exec_answersOnce s i
  | error _ => exact .whenLive (.raise (.refl s))

end

/-- What stands around the next state is the arguments begun with, and the port with the one response more. -/
theorem pushRsp_withPort_eq_around {s t : State} (same : SameArguments s t) (st : BitVec 8) (rd : BitVec 64)
    (p : Port) : pushRsp st rd (t.withPort p) =
      State.around s.cfg s.env.src { p with rsps := p.rsps ++ [{ st := st, rd := rd }] } t.system := by
  rw [← same.1, ← same.2]; rfl

/-- Settles O59: accepting a word answers once under every port, so over the state's own port it does what `transact`,
which runs it over the empty port, says. -/
theorem acceptingIsTheStepFunctionOfItsArguments : Obligations.AcceptingIsTheStepFunctionOfItsArguments := by
  intro cw s
  rw [transact, around_eq_withPort]
  obtain ⟨t, st, rd, same, answers⟩ | ⟨e, stops⟩ := acceptCommand_answersOnce s cw
  · have own : acceptCommand cw s = respond st rd (t.withPort s.port) := answers s.port
    have empty : acceptCommand cw (s.withPort { inputs := [], rsps := [] }) = respond st rd (t.withPort _) := answers _
    rw [own, empty]
    simp only [respond_eq, system_pushRsp, system_withPort, lastRsp_pushRsp]
    rw [pushRsp_withPort_eq_around same]
  · have own : acceptCommand cw s = .fault e := stops s.port
    have empty : acceptCommand cw (s.withPort { inputs := [], rsps := [] }) = .fault e := stops _
    rw [own, empty]

end Sys2Proof.Machine
end

section
/-! A fixed-width integer as eight bytes on the streams (R69): what WRWORD writes and RDWORD reads (R132, R142). -/

namespace Sys2Proof.Machine

/-! ### Words as bytes -/

@[simp] theorem length_wordToBytes (big : Bool) (n : BitVec 64) : (wordToBytes big n).length = 8 := by
  cases big <;> rfl

/-- The setting reverses the stream order of the same eight bytes. -/
theorem wordToBytes_big (n : BitVec 64) : wordToBytes true n = (wordToBytes false n).reverse := rfl

theorem bytesToWord_reverse (bytes : List Byte) : bytesToWord true bytes.reverse = bytesToWord false bytes := by
  simp only [bytesToWord, if_true, List.reverse_reverse, Bool.false_eq_true, if_false]

/-- Least significant byte first: each byte stands just above the ones before it, so eight of them are the word. -/
theorem bytesToWord_wordToBytes_little (n : BitVec 64) : bytesToWord false (wordToBytes false n) = n := by
  change n.extractLsb' 56 8 ++ n.extractLsb' 48 8 ++ n.extractLsb' 40 8 ++ n.extractLsb' 32 8 ++
    n.extractLsb' 24 8 ++ n.extractLsb' 16 8 ++ n.extractLsb' 8 8 ++ n.extractLsb' 0 8 = n
  simp only [BitVec.extractLsb'_append_extractLsb'_eq_extractLsb', BitVec.extractLsb'_eq_self]

/-- `BytesToWord` inverts `WordToBytes` (R69). -/
@[simp] theorem bytesToWord_wordToBytes (big : Bool) (n : BitVec 64) : bytesToWord big (wordToBytes big n) = n := by
  cases big with
  | false => exact bytesToWord_wordToBytes_little n
  | true => rw [wordToBytes_big, bytesToWord_reverse, bytesToWord_wordToBytes_little]

/-! ### Words through the streams -/

/-- WRWORD of a live block appends the eight bytes to the sink (R142). -/
theorem exec_wrword_live {s : State} (h : live s) (n : BitVec 64) :
    exec (.wrword n) s =
      .next (pushRsp stOk 0#64 { s with env.snk := s.env.snk ++ wordToBytes s.cfg.wordBigEndian n }) := by
  change execWrword n s = _
  rw [execWrword, whenLive_live h, snkPutAll_eq, respond_eq]

/-- RDWORD of a live block with eight bytes left takes them (R132). -/
theorem exec_rdword_live {s : State} (h : live s) (left : s.env.spos + 8 ≤ s.env.src.length) :
    exec .rdword s =
      .next (pushRsp stOk (bytesToWord s.cfg.wordBigEndian ((s.env.src.drop s.env.spos).take 8))
        { s with env.spos := s.env.spos + 8 }) := by
  change execRdword s = _
  have notEmpty : ¬ s.env.src.length - s.env.spos = 0 := by omega
  have notShort : ¬ s.env.src.length - s.env.spos < wordBytes := by change ¬ _ < 8; omega
  simp only [execRdword, whenLive_live h, if_neg notEmpty, if_neg notShort, srcNextN_eq wordBytes left, respond_eq]

/-- RDWORD at the bytes of a word answers the word. -/
theorem exec_rdword_wordToBytes {s : State} (h : live s) {n : BitVec 64} {rest : List Byte}
    (next : s.env.src.drop s.env.spos = wordToBytes s.cfg.wordBigEndian n ++ rest) :
    exec .rdword s = .next (pushRsp stOk n { s with env.spos := s.env.spos + 8 }) := by
  have lengths := congrArg List.length next
  rw [List.length_drop, List.length_append, length_wordToBytes] at lengths
  rw [exec_rdword_live h (by omega), next, List.take_left' (length_wordToBytes _ _), bytesToWord_wordToBytes]

/-- Settles O40: the eight bytes WRWORD appends are the word's under the setting of both machines, and at those bytes
RDWORD answers the word. -/
theorem wordWrittenIsWordRead : Obligations.WordWrittenIsWordRead := by
  refine ⟨bytesToWord_wordToBytes, fun n s r rest liveWriter liveReader sameCfg => ?_⟩
  refine ⟨_, wordToBytes s.cfg.wordBigEndian n, exec_wrword_live liveWriter n, rfl, fun next => ?_⟩
  rw [← sameCfg] at next
  exact exec_rdword_wordToBytes liveReader next

end Sys2Proof.Machine
end

section
/-! The host's actions on the streams between two commands (R66, R67). -/

namespace Sys2Proof.Machine

/-- A step with an input pending takes the oldest one, from the state without it on the port (log 1). -/
theorem step_pending {s : State} {inp : HostInput} {rest : List HostInput} (h : s.port.inputs = inp :: rest) :
    step s = takeInput inp { s with port.inputs := rest } := by
  rw [step, h]

/-- Settles O5: each of the three inputs is taken by the step, and its meaning writes the fields of one stream. -/
theorem hostActionsTouchTheStreamsOnly : Obligations.HostActionsTouchTheStreamsOnly := by
  intro s rest
  refine ⟨fun h => ?_, fun bytes h => ?_, fun h => ?_⟩
  · rw [step_pending h, takeInput, rewindSource]
  · rw [step_pending h, takeInput, replaceSource]
  · rw [step_pending h, takeInput, replaceSink]

end Sys2Proof.Machine
end

section
/-! The decoder against the encoder: which words decode, and to what (R91, R92, R95, R97). -/

namespace Sys2Proof

/-! ### The must-be-zero rule on the fields -/

/-- The must-be-zero rule of R92, on the A and D fields of a command word. -/
def Format.FieldsLegal : Format → BitVec 8 → BitVec 64 → Prop
  | .z, a, d => a = 0#8 ∧ d = 0#64
  | .b, a, d => a.extractLsb' 1 7 = 0#7 ∧ d = 0#64
  | .s, _, d => d = 0#64
  | .w, a, _ => a = 0#8
  | .sw, _, _ => True

/-- The decoder's masks test exactly that rule. -/
theorem masked_iff_fieldsLegal (f : Format) (a : BitVec 8) (d : BitVec 64) :
    a &&& maskA f = 0#8 ∧ d &&& maskD f = 0#64 ↔ f.FieldsLegal a d := by
  have wholeA : a &&& 0xFF#8 = a := BitVec.and_allOnes
  cases f with
  | z => simp only [maskA, maskD, Format.FieldsLegal, wholeA, BitVec.and_allOnes]
  | b => simp only [maskA, maskD, Format.FieldsLegal, bitField_iff, BitVec.and_allOnes]
  | s => simp only [maskA, maskD, Format.FieldsLegal, BitVec.and_zero, BitVec.and_allOnes, true_and]
  | w => simp only [maskA, maskD, Format.FieldsLegal, wholeA, BitVec.and_zero, and_true]
  | sw => simp only [maskA, maskD, Format.FieldsLegal, BitVec.and_zero, and_self]

/-- What a word that decodes must be: a row of R95 has its opcode, its fields keep the rule of the row's format, and the
instruction is the one the row builds from them. -/
theorem decode_ok_row {cw : CmdWord} {i : Instr} (h : decode cw = .ok i) :
    ∃ r ∈ opRows, r.op = opField cw ∧ r.format.FieldsLegal (aField cw) (dField cw) ∧
      r.build (aField cw) (dField cw) = i := by
  rw [← cmdWord_fields cw, decode_cmdWord] at h
  cases found : findRow (opField cw) with
  | none => simp only [found, reduceCtorEq] at h
  | some r =>
    simp only [found] at h
    split at h
    · next masked =>
      have legal := (masked_iff_fieldsLegal r.format _ _).1 masked
      have sameOp : r.op = opField cw := by simpa only [beq_iff_eq] using List.find?_some found
      exact ⟨r, List.mem_of_find?_eq_some found, sameOp, legal, Except.ok.inj h⟩
    · cases h

/-- From fields that keep its format's rule a row builds a well-formed instruction, with these fields in its encoding: each
operand the row uses is a field, and the fields it does not use are zero. -/
theorem encode_build {r : OpRow} (row : r ∈ opRows) {a : BitVec 8} {d : BitVec 64} (legal : r.format.FieldsLegal a d) :
    (r.build a d).wellFormed = true ∧ encode (r.build a d) = cmdWord r.op a d := by
  fin_cases row <;>
    simp_all only [Format.FieldsLegal, Instr.wellFormed, encode, beq_self_eq_true, and_self]

/-- One case per row of R95. -/
theorem decode_encode (i : Instr) : i.wellFormed = true → decode (encode i) = .ok i := by
  cases i with
  | nop => exact Laws.RoundTrip.nop
  | reset => exact Laws.RoundTrip.reset
  | rdstat => exact Laws.RoundTrip.rdstat
  | rdbit => exact Laws.RoundTrip.rdbit
  | rdbyte => exact Laws.RoundTrip.rdbyte
  | rdword => exact Laws.RoundTrip.rdword
  | wrbit a => exact Laws.RoundTrip.wrbit a
  | wrbyte d => exact Laws.RoundTrip.wrbyte d
  | wrword d => exact Laws.RoundTrip.wrword d
  | flush => exact Laws.RoundTrip.flush
  | count a => exact Laws.RoundTrip.count a
  | setfreq a d => exact Laws.RoundTrip.setfreq a d
  | getfreq a => exact Laws.RoundTrip.getfreq a
  | build => exact Laws.RoundTrip.build
  | getnleaf => exact Laws.RoundTrip.getnleaf
  | gettotal => exact Laws.RoundTrip.gettotal
  | encode a => exact Laws.RoundTrip.encode a
  | decode => exact Laws.RoundTrip.decode

/-- Settles O1: the row a word decodes by builds an instruction whose encoding has the word's fields, and so is the word;
the other way every encoding of a well-formed instruction decodes to it. -/
theorem decodeExactlyInvertsEncode : Obligations.DecodeExactlyInvertsEncode := by
  intro cw i
  constructor
  · intro h
    obtain ⟨r, row, sameOp, legal, rfl⟩ := decode_ok_row h
    obtain ⟨wellFormed, encoded⟩ := encode_build row legal
    exact ⟨wellFormed, by rw [encoded, sameOp, cmdWord_fields]⟩
  · rintro ⟨wellFormed, rfl⟩
    exact decode_encode i wellFormed

end Sys2Proof
end

section
/-! Illegal words: ILLEGAL_CMD, or the refusal of a faulted block (R97, R241, R243). -/

namespace Sys2Proof.Machine

/-- A word that does not decode runs no command's rule. -/
theorem acceptCommand_illegal {cw : CmdWord} {e : DecodeError} (h : decode cw = .error e) (s : State) :
    acceptCommand cw s = whenLive s (raise .illegalCmd s) := by
  rw [acceptCommand, h]

/-- Settles O3: a word that decoded would be the encoding of a well-formed instruction (O1), and no such encoding has one
of the listed fields, so the word is answered by the illegal branch of the dispatch. -/
theorem illegalWordRaisesIllegalCmd : Obligations.IllegalWordRaisesIllegalCmd := by
  refine ⟨decode_encode .nop rfl, fun cw s illegal => ?_⟩
  cases decoded : decode cw with
  | ok i =>
    obtain ⟨wellFormed, rfl⟩ := (decodeExactlyInvertsEncode cw i).1 decoded
    cases i with
    | wrbit a =>
      have highZero : a.extractLsb' 1 7 = 0#7 := by simpa only [Instr.wellFormed, beq_iff_eq] using wellFormed
      simp [encode, highZero] at illegal
    | _ => simp [encode] at illegal
  | error e =>
    rw [acceptCommand_illegal decoded]
    exact ⟨fun isLive => whenLive_live isLive _, fun faulted => whenLive_faulted faulted _⟩

end Sys2Proof.Machine
end

section
/-! Every response is legal: one of the ten values of R94, with RD = 0 unless it is OK (R93, R94). -/

namespace Sys2Proof.Machine

/-- ST is one of the ten values of R94 that a command answers, and RD = 0 unless ST = OK (R93). -/
def Response.Legal (r : Response) : Prop :=
  r.st ∈ [0x00#8, 0x01#8, 0x02#8, 0x10#8, 0x12#8, 0x20#8, 0x21#8, 0x22#8, 0x23#8, 0x2F#8] ∧
  (r.st ≠ 0x00#8 → r.rd = 0#64)

/-- A command that ends with this outcome has given a legal response, if it ended. -/
def AnswersLegally (o : Host.Outcome State Fault Refusal) : Prop := ∀ t, o = .next t → (lastRsp t).Legal

namespace AnswersLegally

variable {s : State} {f g : Host.Outcome State Fault Refusal}

theorem respond {st : BitVec 8} {rd : BitVec 64} (legal : Response.Legal ⟨st, rd⟩) :
    AnswersLegally (Machine.respond st rd s) := by
  intro t h
  rw [respond_eq] at h
  cases h
  rwa [lastRsp_pushRsp]

/-- OK answers any RD. -/
theorem ok {rd : BitVec 64} : AnswersLegally (Machine.respond stOk rd s) :=
  respond ⟨by simp [stOk], fun notOk => absurd rfl notOk⟩

theorem eod : AnswersLegally (Machine.respond stEod 0#64 s) := respond ⟨by simp [stEod], fun _ => rfl⟩

/-- The code of each cause is among the ten values. -/
theorem raise (c : Cause) : AnswersLegally (Machine.raise c s) :=
  respond ⟨by cases c <;> simp [Cause.code], fun _ => rfl⟩

theorem fault (e : Fault) : AnswersLegally (.fault e) := by
  intro t h
  cases h

theorem ite {c : Prop} [Decidable c] (hf : AnswersLegally f) (hg : AnswersLegally g) :
    AnswersLegally (if c then f else g) := by
  split
  · exact hf
  · exact hg

/-- The refusal of R243 answers (FAULTED, 0). -/
theorem whenLive (hf : AnswersLegally f) : AnswersLegally (Machine.whenLive s f) :=
  ite (respond ⟨by simp [stFaulted], fun _ => rfl⟩) hf

end AnswersLegally

/-- The descent goes on, or ends with a symbol, EOD or MALFORMED_BITSTREAM (R193). -/
theorem descend_answersLegally (k : Nat) (s : State) : AnswersLegally (descend k s) := by
  induction k generalizing s with
  | zero => exact .fault .decodeTooDeep
  | succ k ih =>
    rw [descend]
    rcases rdBit s with ⟨_ | bit, s1⟩
    · exact .ite .eod (.raise _)
    · exact .ite (.raise _) (.ite .ok (ih _))

/-- One case per row of R95. -/
theorem exec_answersLegally (i : Instr) (s : State) : AnswersLegally (exec i s) := by
  cases i with
  | nop => exact .whenLive .ok
  | reset => exact .ok
  | rdstat => exact .ok
  | rdbit =>
    refine .whenLive ?_
    rcases rdBit s with ⟨_ | bit, s1⟩
    · exact .eod
    · exact .ok
  | rdbyte =>
    refine .whenLive ?_
    rcases srcNext s with ⟨_ | b, s1⟩
    · exact .eod
    · exact .ok
  | rdword => exact .whenLive (.ite .eod (.ite (.raise _) .ok))
  | wrbit a => exact .whenLive .ok
  | wrbyte d => exact .whenLive .ok
  | wrword d => exact .whenLive .ok
  | flush => exact .whenLive .ok
  | count a => exact .whenLive (.ite (.raise _) (.ite (.raise _) .ok))
  | setfreq a d => exact .whenLive (.ite (.raise _) .ok)
  | getfreq a => exact .whenLive .ok
  | build =>
    refine .whenLive (.ite (.raise _) (.ite .ok ?_))
    rcases mergeLoop 255 (leafPhase (setPq [] (setNnode 0#9 s))) with ⟨_ | c, s2⟩
    · exact .ok
    · exact .raise c
  | getnleaf => exact .whenLive .ok
  | gettotal => exact .whenLive (.ite .ok .ok)
  | encode a =>
    refine .whenLive (.ite (.raise _) (.ite (.raise _) ?_))
    rcases pushCode maxDepth (readLeaf s.blk a) (setClen 0#8 s) with _ | s1
    · exact .fault .encodeStackFull
    · exact .ok
  | decode => exact .whenLive (.ite (.raise _) (descend_answersLegally maxDepth _))

/-- An illegal word is answered FAULTED or ILLEGAL_CMD (R97). -/
theorem acceptCommand_answersLegally (cw : CmdWord) (s : State) : AnswersLegally (acceptCommand cw s) := by
  cases decoded : decode cw with
  | ok i =>
    rw [acceptCommand, decoded]
    exact exec_answersLegally i s
  | error e =>
    rw [acceptCommand_illegal decoded]
    exact .whenLive (.raise _)

/-- Settles O41: accepting a word appends one response to the port it began with, and every response is legal. -/
theorem oneResponsePerCommand : Obligations.OneResponsePerCommand := by
  intro cw s t h
  have legal : (lastRsp t).Legal := acceptCommand_answersLegally cw s t h
  obtain ⟨u, st, rd, -, answers⟩ | ⟨e, stops⟩ := acceptCommand_answersOnce s cw
  · have own : acceptCommand cw s = respond st rd (u.withPort s.port) := answers s.port
    rw [own, respond_eq] at h
    cases h
    rw [lastRsp_pushRsp] at legal
    exact ⟨⟨st, rd⟩, rfl, legal⟩
  · have own : acceptCommand cw s = .fault e := stops s.port
    rw [own] at h
    cases h

end Sys2Proof.Machine
end

section
/-! NOP, RESET and RDSTAT, and the gate on FAULT that RESET and RDSTAT alone pass (R98, R120 to R122, R243). -/

namespace Sys2Proof.Machine

/-! ### NOP -/

/-- Settles O8: NOP's rule is the bare response, behind the test of R98 step 3. -/
theorem nopDoesNothing : Obligations.NopDoesNothing := by
  refine ⟨decode_encode .nop rfl, fun s => ⟨fun isLive => ?_, fun faulted => ?_⟩⟩
  · exact whenLive_live isLive (respond stOk 0#64 s)
  · exact whenLive_faulted faulted (respond stOk 0#64 s)

/-! ### A faulted block -/

/-- R98 step 3, over the whole instruction set: each meaning but RESET's and RDSTAT's begins with the gate. -/
theorem exec_faulted {i : Instr} {s : State} (faulted : s.blk.fault = true) (notReset : i ≠ .reset)
    (notRdstat : i ≠ .rdstat) : exec i s = .next (pushRsp stFaulted 0#64 s) := by
  cases i with
  | reset => exact absurd rfl notReset
  | rdstat => exact absurd rfl notRdstat
  | _ => exact whenLive_faulted faulted _

/-- A word that decodes runs its command's rule. -/
theorem acceptCommand_ok {cw : CmdWord} {i : Instr} (h : decode cw = .ok i) (s : State) :
    acceptCommand cw s = exec i s := by
  rw [acceptCommand, h]

/-- While FAULT = 1, no word but RESET's changes block state: RDSTAT and the refusal only answer. -/
theorem acceptCommand_faulted_blk {cw : CmdWord} {s t : State} (faulted : s.blk.fault = true)
    (notReset : decode cw ≠ .ok .reset) (h : acceptCommand cw s = .next t) : t.blk = s.blk := by
  cases decoded : decode cw with
  | error e =>
    rw [acceptCommand_illegal decoded, whenLive_faulted faulted] at h
    cases h
    rfl
  | ok i =>
    rw [acceptCommand_ok decoded] at h
    by_cases isRdstat : i = .rdstat
    · subst isRdstat
      cases h
      rfl
    · have isNotReset : i ≠ .reset := fun e => notReset (by rw [decoded, e])
      rw [exec_faulted faulted isNotReset isRdstat] at h
      cases h
      rfl

/-! ### RESET -/

/-- Settles O9: RESET is `resetBlock` and a response; a word with its opcode and a non-zero field is illegal (O3); and a
word after which FAULT is clear decodes to RESET, so it is RESET's encoding (O1). -/
theorem resetWritesTheResetValues : Obligations.ResetWritesTheResetValues := by
  refine ⟨decode_encode .reset rfl, fun s => rfl, fun a d s nonZero => ?_, fun cw s t faulted h cleared => ?_⟩
  · apply illegalWordRaisesIllegalCmd.2
    rw [opField_cmdWord, aField_cmdWord, dField_cmdWord]
    exact .inr (.inl ⟨by decide, nonZero⟩)
  · by_cases isReset : decode cw = .ok .reset
    · exact ((decodeExactlyInvertsEncode cw .reset).1 isReset).2.symm
    · rw [acceptCommand_faulted_blk faulted isReset h, faulted] at cleared
      cases cleared

/-! ### The STATUS word, field by field (R42) -/

/-- Bit by bit, from FAULT up. -/
theorem getLsbD_statusWord (b : Block) (i : Nat) : (statusWord b).getLsbD i =
    if i < 1 then b.fault
    else if i < 2 then b.tvalid
    else if i < 8 then false
    else if i < 16 then b.cause.getLsbD (i - 8)
    else if i < 19 then b.wcnt.getLsbD (i - 16)
    else if i < 20 then false
    else if i < 24 then b.rcnt.getLsbD (i - 20)
    else false := by
  change BitVec.getLsbD (w := 40 + 4 + 1 + 3 + 8 + 6 + 1 + 1) (0#40 ++ b.rcnt ++ 0#1 ++ b.wcnt ++ b.cause ++ 0#6 ++
    BitVec.ofBool b.tvalid ++ BitVec.ofBool b.fault) i = _
  simp only [BitVec.getLsbD_append, BitVec.getLsbD_zero, BitVec.getLsbD_ofBool, Nat.sub_sub]
  grind

/-- A field of a word is read off the word's bits. -/
theorem extractLsb'_eq_of_bits {w start len : Nat} {x : BitVec w} {v : BitVec len}
    (bits : ∀ i < len, x.getLsbD (start + i) = v.getLsbD i) : x.extractLsb' start len = v := by
  ext i hi
  rw [BitVec.getElem_extractLsb', bits i hi, BitVec.getLsbD_eq_getElem hi]

section

variable (b : Block)

theorem statusWord_zero_7_2 : (statusWord b).extractLsb' 2 6 = 0#6 :=
  extractLsb'_eq_of_bits fun i hi => by grind [getLsbD_statusWord]

theorem statusWord_cause : (statusWord b).extractLsb' 8 8 = b.cause :=
  extractLsb'_eq_of_bits fun i hi => by grind [getLsbD_statusWord]

theorem statusWord_wcnt : (statusWord b).extractLsb' 16 3 = b.wcnt :=
  extractLsb'_eq_of_bits fun i hi => by grind [getLsbD_statusWord]

theorem statusWord_rcnt : (statusWord b).extractLsb' 20 4 = b.rcnt :=
  extractLsb'_eq_of_bits fun i hi => by grind [getLsbD_statusWord]

theorem statusWord_zero_63_24 : (statusWord b).extractLsb' 24 40 = 0#40 :=
  extractLsb'_eq_of_bits fun i hi => by grind [getLsbD_statusWord]

end

/-! ### RDSTAT -/

/-- Settles O10: RDSTAT, behind no gate, answers the STATUS word of the block as it is. -/
theorem rdstatReturnsTheStatusWord : Obligations.RdstatReturnsTheStatusWord := by
  refine ⟨decode_encode .rdstat rfl, fun s => ⟨statusWord s.blk, rfl, ?_⟩⟩
  exact ⟨getLsbD_statusWord _ 0, getLsbD_statusWord _ 1, statusWord_zero_7_2 _, statusWord_cause _, statusWord_wcnt _,
    getLsbD_statusWord _ 19, statusWord_rcnt _, statusWord_zero_63_24 _⟩

end Sys2Proof.Machine
end

section
/-! RDBIT, RDBYTE and RDWORD of a live block, with what each answers and the whole next state (R130 to R132). -/

namespace Sys2Proof.Machine

/-! ### A bit and a byte as a result (R96) -/

theorem rdOfBit_eq_ite (b : Bool) : rdOfBit b = if b then 1#64 else 0#64 := by
  cases b with
  | false => rfl
  | true => rfl

theorem rdOfByte_eq_ofNat (b : Byte) : rdOfByte b = BitVec.ofNat 64 b.toNat := (BitVec.ofNat_toNat 64 b).symm

/-! ### RDBIT and RDBYTE -/

section

variable {s t : State} (isLive : live s)
include isLive

/-- RDBIT answers the bit that `RdBit()` delivers. -/
theorem exec_rdbit_some {bit : Bool} (read : rdBit s = (some bit, t)) :
    exec .rdbit s = .next (pushRsp stOk (if bit then 1#64 else 0#64) t) := by
  change execRdbit s = _
  rw [execRdbit, whenLive_live isLive, read, ← rdOfBit_eq_ite]
  rfl

/-- RDBIT answers EOD when `RdBit()` has no bit. -/
theorem exec_rdbit_none (read : rdBit s = (none, t)) : exec .rdbit s = .next (pushRsp stEod 0#64 t) := by
  change execRdbit s = _
  rw [execRdbit, whenLive_live isLive, read]
  rfl

/-- RDBYTE answers the byte that `SrcNext()` takes. -/
theorem exec_rdbyte_some {b : Byte} (read : srcNext s = (some b, t)) :
    exec .rdbyte s = .next (pushRsp stOk (BitVec.ofNat 64 b.toNat) t) := by
  change execRdbyte s = _
  rw [execRdbyte, whenLive_live isLive, read, ← rdOfByte_eq_ofNat]
  rfl

/-- RDBYTE answers EOD when `SrcNext()` has no byte. -/
theorem exec_rdbyte_none (read : srcNext s = (none, t)) : exec .rdbyte s = .next (pushRsp stEod 0#64 t) := by
  change execRdbyte s = _
  rw [execRdbyte, whenLive_live isLive, read]
  rfl

end

/-- Settles O11: the three cases of `RdBit()` are a buffered bit, a refill, and the end of data. -/
theorem rdbitDeliversTheNextBit : Obligations.RdbitDeliversTheNextBit := by
  refine ⟨decode_encode .rdbit rfl, fun s isLive => ?_⟩
  refine ⟨fun buffered _ => ?_, fun empty left => ?_, fun empty noByte => ?_⟩
  · exact exec_rdbit_some isLive (rdBit_buffered buffered)
  · exact exec_rdbit_some isLive (rdBit_refill empty left)
  · exact exec_rdbit_none isLive (rdBit_eod empty noByte)

/-- Settles O12: RDBYTE is `SrcNext()` and a response, and `SrcNext()` knows no bit buffer. -/
theorem rdbyteReturnsTheNextByte : Obligations.RdbyteReturnsTheNextByte := by
  refine ⟨decode_encode .rdbyte rfl, fun s isLive => ⟨fun left => ?_, fun noByte => ?_⟩⟩
  · exact exec_rdbyte_some isLive (srcNext_byte left)
  · exact exec_rdbyte_none isLive (srcNext_exhausted noByte)

/-! ### RDWORD -/

/-- RDWORD at a clean boundary (R132). -/
theorem exec_rdword_exhausted {s : State} (isLive : live s) (noByte : s.env.src.length ≤ s.env.spos) :
    exec .rdword s = .next (pushRsp stEod 0#64 s) := by
  change execRdword s = _
  have empty : s.env.src.length - s.env.spos = 0 := by omega
  simp only [execRdword, whenLive_live isLive, if_pos empty, respond_eq]

/-- RDWORD with fewer than eight bytes left drains the source and faults (R132). -/
theorem exec_rdword_short {s : State} (isLive : live s) (left : s.env.spos < s.env.src.length)
    (short : s.env.src.length < s.env.spos + 8) : exec .rdword s = raise .endOfStream (srcDrain s) := by
  change execRdword s = _
  have notEmpty : ¬ s.env.src.length - s.env.spos = 0 := by omega
  have few : s.env.src.length - s.env.spos < wordBytes := by change _ < 8; omega
  simp only [execRdword, whenLive_live isLive, if_neg notEmpty, if_pos few]

/-- Least significant byte first, byte `k` is that of the `k`-th append from below (R69). -/
theorem extractLsb'_bytesToWord_little (bytes : List Byte) {k : Nat} (hk : k < 8) :
    (bytesToWord false bytes).extractLsb' (8 * k) 8 = bytes.getD k 0#8 := by
  change BitVec.extractLsb' (n := 8 + 8 + 8 + 8 + 8 + 8 + 8 + 8) (8 * k) 8
    (bytes.getD 7 0#8 ++ bytes.getD 6 0#8 ++ bytes.getD 5 0#8 ++ bytes.getD 4 0#8 ++
      bytes.getD 3 0#8 ++ bytes.getD 2 0#8 ++ bytes.getD 1 0#8 ++ bytes.getD 0 0#8) = _
  interval_cases k <;>
    simp (disch := omega) only [BitVec.extractLsb'_append_eq_of_le, BitVec.extractLsb'_append_eq_of_add_le,
      BitVec.extractLsb'_eq_self, Nat.reduceMul, Nat.reduceSub]

theorem getElem?_eq_extractLsb'_little {bytes : List Byte} (eight : bytes.length = 8) {k : Nat} (hk : k < 8) :
    bytes[k]? = some ((bytesToWord false bytes).extractLsb' (8 * k) 8) := by
  have inRange : k < bytes.length := by omega
  rw [extractLsb'_bytesToWord_little bytes hk, List.getD_eq_getElem _ _ inRange]
  exact List.getElem?_eq_getElem inRange

/-- The setting WORD_BIG_ENDIAN reverses the eight bytes (R69). -/
theorem getElem?_eq_extractLsb'_bytesToWord (big : Bool) {bytes : List Byte} (eight : bytes.length = 8) {k : Nat}
    (hk : k < 8) : bytes[if big then 7 - k else k]? = some ((bytesToWord big bytes).extractLsb' (8 * k) 8) := by
  cases big with
  | false => exact getElem?_eq_extractLsb'_little eight hk
  | true =>
    have mirrored : bytes.reverse[k]? = bytes[7 - k]? := by
      rw [List.getElem?_reverse (by omega), eight]
    have little := getElem?_eq_extractLsb'_little (List.length_reverse.trans eight) hk
    rw [mirrored, ← bytesToWord_reverse, List.reverse_reverse] at little
    exact little

/-- Settles O13: no byte, one to seven, and eight or more are the three branches of RDWORD; the eight bytes it takes are
the source's from SPOS on. -/
theorem rdwordReadsEightBytes : Obligations.RdwordReadsEightBytes := by
  refine ⟨decode_encode .rdword rfl, fun s isLive => ⟨fun noByte => ?_, fun left short => ?_, fun left => ?_⟩⟩
  · exact exec_rdword_exhausted isLive noByte
  · exact exec_rdword_short isLive left short
  · refine ⟨_, exec_rdword_live isLive left, fun k hk => ?_⟩
    have eight : ((s.env.src.drop s.env.spos).take 8).length = 8 := by
      rw [List.length_take, List.length_drop]
      omega
    have place : (if s.cfg.wordBigEndian then 7 - k else k) < 8 := by split <;> omega
    rw [← getElem?_eq_extractLsb'_bytesToWord _ eight hk, List.getElem?_take_of_lt place, List.getElem?_drop]

end Sys2Proof.Machine
end

section
/-! WRBIT, WRBYTE, WRWORD and FLUSH of a live block, with the whole next state of each (R140 to R143). -/

namespace Sys2Proof.Machine

/-! ### What each command does once past the gate on FAULT -/

section

variable {s : State} (isLive : live s)
include isLive

/-- WRBIT is `WrBit(A[0])` and a response (R140). -/
theorem exec_wrbit_live (a : BitVec 8) : exec (.wrbit a) s = .next (pushRsp stOk 0#64 (wrBit (a.getLsbD 0) s)) := by
  change execWrbit a s = _
  rw [execWrbit, whenLive_live isLive, respond_eq]
  rfl

/-- WRBYTE puts D[7:0] (R141). -/
theorem exec_wrbyte_live (d : BitVec 64) :
    exec (.wrbyte d) s = .next (pushRsp stOk 0#64 (snkPut (byteOperand d) s)) := by
  change execWrbyte d s = _
  rw [execWrbyte, whenLive_live isLive, respond_eq]

/-- FLUSH with no bit pending flushes the sink only (R143). -/
theorem exec_flush_empty (empty : s.blk.wcnt = 0#3) : exec .flush s = .next (pushRsp stOk 0#64 (snkFlush s)) := by
  change execFlush s = _
  rw [execFlush, whenLive_live isLive, if_pos empty, respond_eq]

/-- FLUSH with bits pending emits their byte before it flushes the sink (R143). -/
theorem exec_flush_pending (pending : s.blk.wcnt ≠ 0#3) :
    exec .flush s = .next (pushRsp stOk 0#64 (snkFlush (setWriter 0x00#8 0#3 (snkPut s.blk.wbuf s)))) := by
  change execFlush s = _
  rw [execFlush, whenLive_live isLive, if_neg pending, respond_eq]

end

/-! ### WRBIT -/

/-- Settles O14: the byte with A[0] set in it is WBUF after `WrBit`, or what the eighth bit emits, where bit 7 − WCNT is
bit 0. -/
theorem wrbitAppendsABit : Obligations.WrbitAppendsABit := by
  refine ⟨fun a highZero => decode_encode (.wrbit a) (beq_iff_eq.2 highZero), fun a s isLive => ?_⟩
  refine ⟨setBit s.blk.wbuf (7 - s.blk.wcnt.toNat) (a.getLsbD 0), fun j _ => ?_, fun eighth => ?_, fun notEighth => ?_⟩
  · exact getLsbD_setBit _ _ _ _ (by omega)
  · rw [exec_wrbit_live isLive, wrBit_emits _ eighth, eighth]
    rfl
  · rw [exec_wrbit_live isLive, wrBit_pending _ notEighth]
    rfl

/-! ### WRBYTE and WRWORD -/

/-- D[7:0] as a number (R96). -/
theorem byteOperand_eq_ofNat (d : BitVec 64) : byteOperand d = BitVec.ofNat 8 (d.toNat % 256) := by
  apply BitVec.eq_of_toNat_eq
  simp [byteOperand]

/-- Settles O15: `SnkPut(D[7:0])` and a response. -/
theorem wrbyteEmitsTheLowByte : Obligations.WrbyteEmitsTheLowByte := by
  refine ⟨fun d => decode_encode (.wrbyte d) rfl, fun d s isLive => ?_⟩
  rw [exec_wrbyte_live isLive, byteOperand_eq_ofNat]
  rfl

/-- The place of each byte of a word in its stream order (R69). -/
theorem getElem?_wordToBytes (big : Bool) (d : BitVec 64) {k : Nat} (hk : k < 8) :
    (wordToBytes big d)[if big then 7 - k else k]? = some (d.extractLsb' (8 * k) 8) := by
  rw [getElem?_eq_extractLsb'_bytesToWord big (length_wordToBytes big d) hk, bytesToWord_wordToBytes]

/-- Settles O16: the bytes WRWORD appends are those of `WordToBytes(D)`, whose places are known. -/
theorem wrwordEmitsEightBytes : Obligations.WrwordEmitsEightBytes := by
  refine ⟨fun d => decode_encode (.wrword d) rfl, fun d s isLive => ?_⟩
  exact ⟨wordToBytes s.cfg.wordBigEndian d, exec_wrword_live isLive d, length_wordToBytes _ d,
    fun k hk => getElem?_wordToBytes _ d hk⟩

/-! ### FLUSH -/

/-- Settles O17: the two cases of the test on WCNT, with `SnkFlush()` in both. -/
theorem flushEmitsThePartialByte : Obligations.FlushEmitsThePartialByte := by
  refine ⟨decode_encode .flush rfl, fun s isLive => ⟨fun empty => ?_, fun pending => ?_⟩⟩
  · exact exec_flush_empty isLive empty
  · exact exec_flush_pending isLive pending

end Sys2Proof.Machine
end

section
/-! COUNT and SETFREQ of a live block, with the whole next state of each (R150, R151). -/

namespace Sys2Proof.Machine

/-! ### What each command does once past the gate on FAULT -/

section

variable {s : State} (isLive : live s)
include isLive

/-- COUNT after BUILD faults, whatever the count is (R150). -/
theorem exec_count_frozen (a : Sym) (built : s.blk.tvalid = true) : exec (.count a) s = raise .sequence s := by
  change execCount a s = _
  rw [execCount, whenLive_live isLive, if_pos built]

/-- COUNT of a count that is all ones faults (R150). -/
theorem exec_count_overflow {a : Sym} (unbuilt : s.blk.tvalid = false) (full : readFreq s.blk a = BitVec.allOnes 64) :
    exec (.count a) s = raise .countOverflow s := by
  change execCount a s = _
  rw [execCount, whenLive_live isLive, if_neg (Bool.eq_false_iff.1 unbuilt), if_pos full]

/-- COUNT writes the count plus one (R150). -/
theorem exec_count_adds {a : Sym} (unbuilt : s.blk.tvalid = false) (room : readFreq s.blk a ≠ BitVec.allOnes 64) :
    exec (.count a) s = .next (pushRsp stOk 0#64 (setFreq a (readFreq s.blk a + 1#64) s)) := by
  change execCount a s = _
  rw [execCount, whenLive_live isLive, if_neg (Bool.eq_false_iff.1 unbuilt), if_neg room, respond_eq]

/-- SETFREQ after BUILD faults (R151). -/
theorem exec_setfreq_frozen (a : Sym) (d : Count) (built : s.blk.tvalid = true) :
    exec (.setfreq a d) s = raise .sequence s := by
  change execSetfreq a d s = _
  rw [execSetfreq, whenLive_live isLive, if_pos built]

/-- SETFREQ writes D (R151). -/
theorem exec_setfreq_writes (a : Sym) (d : Count) (unbuilt : s.blk.tvalid = false) :
    exec (.setfreq a d) s = .next (pushRsp stOk 0#64 (setFreq a d s)) := by
  change execSetfreq a d s = _
  rw [execSetfreq, whenLive_live isLive, if_neg (Bool.eq_false_iff.1 unbuilt), respond_eq]

end

/-! ### The greatest count, and one table entry against the others -/

theorem eq_allOnes_iff_toNat (n : Count) : n = BitVec.allOnes 64 ↔ n.toNat = 2 ^ 64 - 1 := by
  rw [← BitVec.toNat_inj, BitVec.toNat_allOnes]

theorem toNat_add_one {n : Count} (room : n.toNat ≠ 2 ^ 64 - 1) : (n + 1#64).toNat = n.toNat + 1 :=
  BitVec.toNat_add_of_lt (by have := n.isLt; change n.toNat + 1 < _; omega)

theorem readFreq_setFreq_same (a : Sym) (n : Count) (s : State) : readFreq (setFreq a n s).blk a = n := by
  rw [readFreq_setFreq, if_pos rfl]

theorem readFreq_setFreq_other {a x : Sym} (other : x ≠ a) (n : Count) (s : State) :
    readFreq (setFreq a n s).blk x = readFreq s.blk x := by
  rw [readFreq_setFreq, if_neg other]

/-! ### COUNT -/

/-- Settles O18: the branches of COUNT in their order. The sum does not wrap, because a count of 2^64 − 1 has left by
COUNT_OVERFLOW. -/
theorem countAddsOne : Obligations.CountAddsOne := by
  refine ⟨fun a => decode_encode (.count a) rfl, fun a s isLive => ?_⟩
  refine ⟨fun built => ?_, fun unbuilt full => ?_, fun unbuilt room => ?_⟩
  · exact exec_count_frozen isLive a built
  · exact exec_count_overflow isLive unbuilt ((eq_allOnes_iff_toNat _).2 full)
  · refine ⟨(setFreq a (readFreq s.blk a + 1#64) s).blk.freq, ?_, ?_, fun x other => ?_⟩
    · exact exec_count_adds isLive unbuilt (mt (eq_allOnes_iff_toNat _).1 room)
    · exact (congrArg BitVec.toNat (readFreq_setFreq_same a _ s)).trans (toNat_add_one room)
    · exact readFreq_setFreq_other other _ s

/-! ### SETFREQ -/

/-- Settles O19: SETFREQ looks at TVALID only, and then writes its one entry. -/
theorem setfreqSetsTheCount : Obligations.SetfreqSetsTheCount := by
  refine ⟨fun a d => decode_encode (.setfreq a d) rfl, fun a d s isLive => ⟨fun built => ?_, fun unbuilt => ?_⟩⟩
  · exact exec_setfreq_frozen isLive a d built
  · exact ⟨(setFreq a d s).blk.freq, exec_setfreq_writes isLive a d unbuilt, readFreq_setFreq_same a d s,
      fun _ other => readFreq_setFreq_other other d s⟩

end Sys2Proof.Machine
end

section
/-! GETFREQ, GETNLEAF and GETTOTAL (R152, R177, R178), and a BUILD that comes too late (R161). -/

namespace Sys2Proof.Machine

/-! ### The queries -/

section

variable {s : State} (isLive : live s)
include isLive

/-- GETFREQ answers FREQ[A] (R152). -/
theorem exec_getfreq_live (a : Sym) : exec (.getfreq a) s = .next (pushRsp stOk (readFreq s.blk a) s) := by
  change execGetfreq a s = _
  rw [execGetfreq, whenLive_live isLive, respond_eq]

/-- GETNLEAF answers NLEAF (R177). -/
theorem exec_getnleaf_live : exec .getnleaf s = .next (pushRsp stOk (rdOfNleaf s.blk.nleaf) s) := by
  change execGetnleaf s = _
  rw [execGetnleaf, whenLive_live isLive, respond_eq]

/-- GETTOTAL without a root answers 0 (R178). -/
theorem exec_gettotal_noRoot (noRoot : s.blk.root = nilIdx) : exec .gettotal s = .next (pushRsp stOk 0#64 s) := by
  change execGettotal s = _
  rw [execGettotal, whenLive_live isLive, if_pos noRoot, respond_eq]

/-- GETTOTAL with a root answers its count (R178). -/
theorem exec_gettotal_root (hasRoot : s.blk.root ≠ nilIdx) :
    exec .gettotal s = .next (pushRsp stOk (readNode s.blk s.blk.root).count s) := by
  change execGettotal s = _
  rw [execGettotal, whenLive_live isLive, if_neg hasRoot, respond_eq]

end

theorem rdOfNleaf_eq_ofNat (n : BitVec 9) : rdOfNleaf n = BitVec.ofNat 64 n.toNat := (BitVec.ofNat_toNat 64 n).symm

/-- Settles O20: each query is one response at the state as it is, behind the test of R98 step 3. -/
theorem queriesAnswerAndChangeNothing : Obligations.QueriesAnswerAndChangeNothing := by
  refine ⟨fun a => decode_encode (.getfreq a) rfl, decode_encode .getnleaf rfl, decode_encode .gettotal rfl,
    fun s isLive => ⟨exec_getfreq_live isLive, ?_, exec_gettotal_noRoot isLive, exec_gettotal_root isLive⟩⟩
  rw [exec_getnleaf_live isLive, rdOfNleaf_eq_ofNat]
  rfl

/-! ### A second BUILD -/

/-- BUILD after BUILD faults before it touches the tree (R161). -/
theorem exec_build_frozen {s : State} (isLive : live s) (built : s.blk.tvalid = true) :
    exec .build s = raise .sequence s := by
  change execBuild s = _
  rw [execBuild, whenLive_live isLive, if_pos built]

/-- Settles O21: the test of TVALID is BUILD's first, and `raise` writes FAULT and CAUSE only. -/
theorem secondBuildRaisesSequence : Obligations.SecondBuildRaisesSequence :=
  ⟨decode_encode .build rfl, fun _ isLive built => exec_build_frozen isLive built⟩

end Sys2Proof.Machine
end

section
/-! The priority queue (R162 to R164): Key is read off a node as an element of a linear order, so `PopMin()` has one
possible answer. -/

namespace Sys2Proof.Machine

/-! ### Key as an element of a linear order (R163) -/

/-- Key(i) = (NODE[i].count, NODE[i].sym, i), in the lexicographic order of unsigned integers. -/
def nodeKey (b : Block) (i : NodeIdx) : ℕ ×ₗ ℕ ×ₗ ℕ :=
  toLex ((readNode b i).count.toNat, toLex ((readNode b i).sym.toNat, i.toNat))

theorem keyBefore_iff_nodeKey_lt (b : Block) (i j : NodeIdx) : keyBefore b i j ↔ nodeKey b i < nodeKey b j := by
  simp only [keyBefore, nodeKey, Prod.Lex.toLex_lt_toLex, BitVec.toNat_inj, and_or_left]

/-- The comparison that `leastKey` makes is that of Key. -/
theorem keyLt_iff_keyBefore (b : Block) (i j : NodeIdx) : keyLt b i j = true ↔ keyBefore b i j := by
  unfold keyLt keyBefore
  by_cases sameCount : (readNode b i).count = (readNode b j).count
  · by_cases sameSym : (readNode b i).sym = (readNode b j).sym
    · simp [sameCount, sameSym]
    · simp [sameCount, sameSym]
  · simp [sameCount]

theorem nodeKey_injective (b : Block) : Function.Injective (nodeKey b) := by
  intro i j h
  simp only [nodeKey, EmbeddingLike.apply_eq_iff_eq, Prod.mk.injEq] at h
  obtain ⟨_, _, sameIndex⟩ := h
  exact BitVec.eq_of_toNat_eq sameIndex

/-- Key reads the count and the symbol of a node only. -/
theorem nodeKey_congr {b b' : Block} {i : NodeIdx} (count : (readNode b' i).count = (readNode b i).count)
    (sym : (readNode b' i).sym = (readNode b i).sym) : nodeKey b' i = nodeKey b i := by
  rw [nodeKey, nodeKey, count, sym]

/-! ### The least member (R164) -/

theorem nodeKey_leastKey_le (b : Block) (m : NodeIdx) (l : List NodeIdx) :
    ∀ j ∈ m :: l, nodeKey b (leastKey b m l) ≤ nodeKey b j := by
  induction l generalizing m with
  | nil => simp [leastKey]
  | cons x xs ih =>
    have keepsLess : nodeKey b (if keyLt b x m then x else m) ≤ nodeKey b m ∧
        nodeKey b (if keyLt b x m then x else m) ≤ nodeKey b x := by
      have order : keyLt b x m = true ↔ nodeKey b x < nodeKey b m :=
        (keyLt_iff_keyBefore b x m).trans (keyBefore_iff_nodeKey_lt b x m)
      split
      · next less => exact ⟨(order.1 less).le, le_rfl⟩
      · next notLess => exact ⟨le_rfl, not_lt.1 (mt order.2 notLess)⟩
    obtain ⟨leM, leX⟩ := keepsLess
    intro j hj
    rw [leastKey]
    obtain rfl | rfl | inRest : j = m ∨ j = x ∨ j ∈ xs := by simpa using hj
    · exact (ih _ _ List.mem_cons_self).trans leM
    · exact (ih _ _ List.mem_cons_self).trans leX
    · exact ih _ _ (List.mem_cons_of_mem _ inRest)

/-- `m` is the member of the queue `q` with the least Key. -/
structure LeastIn (b : Block) (q : List NodeIdx) (m : NodeIdx) : Prop where
  mem : m ∈ q
  least : ∀ j ∈ q, j ≠ m → keyBefore b m j

/-- `PopMin()` on a non-empty queue takes its least member. -/
theorem popMin_least {s : State} (notEmpty : s.tmp.pq ≠ []) :
    ∃ m, LeastIn s.blk s.tmp.pq m ∧ popMin s = some (m, setPq (s.tmp.pq.erase m) s) := by
  unfold popMin
  cases hq : s.tmp.pq with
  | nil => exact absurd hq notEmpty
  | cons i is =>
    refine ⟨leastKey s.blk i is, ⟨leastKey_mem s.blk i is, fun j hj other => ?_⟩, rfl⟩
    rw [keyBefore_iff_nodeKey_lt]
    exact lt_of_le_of_ne (nodeKey_leastKey_le s.blk i is j hj) fun e => other (nodeKey_injective _ e).symm

/-- Settles O24: the member popped is the least one, and no other member comes before it, because Key orders linearly. -/
theorem popMinTakesTheLeastKey : Obligations.PopMinTakesTheLeastKey := by
  intro s notEmpty _
  obtain ⟨m, ⟨mem, least⟩, popped⟩ := popMin_least notEmpty
  refine ⟨m, mem, fun j hj other => ⟨least j hj other, fun before => ?_⟩, popped⟩
  have less := least j hj other
  rw [keyBefore_iff_nodeKey_lt] at less before
  exact lt_asymm less before

end Sys2Proof.Machine
end

section
/-! The leaf phase (R165), by induction on the number of symbols scanned. -/

namespace Sys2Proof.Machine

/-! ### The table as a list of 256 counts -/

/-- FREQ in ascending symbol order. -/
theorem freq_toList_eq_map (b : Block) :
    b.freq.toList = (List.range 256).map fun n => readFreq b (BitVec.ofNat 8 n) := by
  apply List.ext_getElem
  · simp
  · intro n h _
    have hn : n < 256 := by simpa using h
    simp [readFreq, Nat.mod_eq_of_lt hn]

/-- The number of positive counts among the first `k` symbols. -/
def positives (b : Block) (k : ℕ) : ℕ := (List.range k).countP fun n => readFreq b (BitVec.ofNat 8 n) ≠ 0#64

/-- The sum of the counts of the first `k` symbols, not wrapped. -/
def freqSum (b : Block) (k : ℕ) : ℕ := ((List.range k).map fun n => (readFreq b (BitVec.ofNat 8 n)).toNat).sum

theorem positives_toNat_succ (b : Block) (a : Sym) :
    positives b (a.toNat + 1) = positives b a.toNat + if readFreq b a = 0#64 then 0 else 1 := by
  simp [positives, List.range_succ, List.countP_append, List.countP_singleton]

theorem freqSum_toNat_succ (b : Block) (a : Sym) :
    freqSum b (a.toNat + 1) = freqSum b a.toNat + (readFreq b a).toNat := by
  simp [freqSum, List.range_succ]

theorem positives_le (b : Block) (k : ℕ) : positives b k ≤ k := by
  simpa [positives] using List.countP_le_length (l := List.range k)
    (p := fun n => readFreq b (BitVec.ofNat 8 n) ≠ 0#64)

theorem positives_256 (b : Block) : positives b 256 = (b.freq.toList.filter (fun n => n ≠ 0#64)).length := by
  rw [freq_toList_eq_map, ← List.countP_eq_length_filter, List.countP_map]
  rfl

theorem freqSum_256 (b : Block) : freqSum b 256 = totalFreq b := by
  rw [totalFreq, freq_toList_eq_map, List.map_map]
  rfl

/-! ### What the operations on the arena and on PQ leave -/

@[simp] theorem allocNode_nnode (n : Node) (s : State) : (allocNode n s).blk.nnode = s.blk.nnode + 1#9 := rfl
@[simp] theorem allocNode_nleaf (n : Node) (s : State) : (allocNode n s).blk.nleaf = s.blk.nleaf := rfl
@[simp] theorem allocNode_root (n : Node) (s : State) : (allocNode n s).blk.root = s.blk.root := rfl
@[simp] theorem allocNode_tmp (n : Node) (s : State) : (allocNode n s).tmp = s.tmp := rfl
@[simp] theorem allocNode_readLeaf (n : Node) (s : State) (a : Sym) :
    readLeaf (allocNode n s).blk a = readLeaf s.blk a := rfl
@[simp] theorem pqInsert_blk (i : NodeIdx) (s : State) : (pqInsert i s).blk = s.blk := rfl
@[simp] theorem pqInsert_pq (i : NodeIdx) (s : State) : (pqInsert i s).tmp.pq = i :: s.tmp.pq := rfl
@[simp] theorem setPar_nnode (i p : NodeIdx) (s : State) : (setPar i p s).blk.nnode = s.blk.nnode := rfl
@[simp] theorem setPar_nleaf (i p : NodeIdx) (s : State) : (setPar i p s).blk.nleaf = s.blk.nleaf := rfl
@[simp] theorem setPar_root (i p : NodeIdx) (s : State) : (setPar i p s).blk.root = s.blk.root := rfl
@[simp] theorem setPar_tmp (i p : NodeIdx) (s : State) : (setPar i p s).tmp = s.tmp := rfl
@[simp] theorem setPar_readLeaf (i p : NodeIdx) (s : State) (a : Sym) :
    readLeaf (setPar i p s).blk a = readLeaf s.blk a := rfl

theorem SameButTree.freq {s t : State} (h : SameButTree s t) : t.blk.freq = s.blk.freq := by
  obtain ⟨_, _, _, _, _, _, rfl⟩ := h
  rfl

theorem SameButTree.readFreq {s t : State} (h : SameButTree s t) (a : Sym) : readFreq t.blk a = readFreq s.blk a := by
  simp only [Machine.readFreq, h.freq]

theorem SameButTree.totalFreq {s t : State} (h : SameButTree s t) : totalFreq t.blk = totalFreq s.blk := by
  rw [Machine.totalFreq, Machine.totalFreq, h.freq]

/-- The values up to and with `n` are `n` and the ones below. -/
theorem toNat_lt_succ_iff {w : ℕ} {x n : BitVec w} : x.toNat < n.toNat + 1 ↔ x = n ∨ x.toNat < n.toNat := by
  rw [← BitVec.toNat_inj]
  omega

/-- An index below another one is not NIL, which is the greatest. -/
theorem ne_nil_of_toNat_lt {x n : NodeIdx} (h : x.toNat < n.toNat) : x ≠ nilIdx := by
  rintro rfl
  have := n.isLt
  change 511 < _ at h
  omega

/-- NNODE counts up as long as the arena has room (R175). -/
theorem toNat_add_one_of_ne_nil {n : NodeIdx} (room : n ≠ nilIdx) : (n + 1#9).toNat = n.toNat + 1 := by
  have := toNat_lt_of_ne_nil room
  exact BitVec.toNat_add_of_lt (by change _ + 1 < 512; omega)

section

variable (n : Node) {s : State} (room : s.blk.nnode ≠ nilIdx)
include room

theorem readNode_allocNode_new : readNode (allocNode n s).blk s.blk.nnode = n := by
  rw [readNode_allocNode _ _ _ room, if_pos rfl]

theorem readNode_allocNode_old {i : NodeIdx} (old : i.toNat < s.blk.nnode.toNat) :
    readNode (allocNode n s).blk i = readNode s.blk i := by
  rw [readNode_allocNode _ _ _ room, if_neg (by rintro rfl; exact lt_irrefl _ old)]

end

/-! ### One symbol -/

/-- The leaf that R165 makes for a symbol. -/
def leafNode (a : Sym) (n : Count) : Node :=
  { kind := .leaf, sym := a, count := n, c0 := nilIdx, c1 := nilIdx, par := nilIdx }

/-- The state in which a symbol has got its leaf, at NNODE and in PQ. -/
def withLeaf (a : Sym) (n : Count) (s : State) : State :=
  allocNode (leafNode a n) (pqInsert s.blk.nnode (setLeaf a s.blk.nnode s))

/-- A symbol with a zero count gets NIL. -/
theorem leafStep_absent {s : State} {a : Sym} (zero : readFreq s.blk a = 0#64) : leafStep s a = setLeaf a nilIdx s := by
  rw [leafStep, if_pos zero]

/-- A symbol with a positive count gets the next node of the arena. -/
theorem leafStep_present {s : State} {a : Sym} (positive : readFreq s.blk a ≠ 0#64) :
    leafStep s a = withLeaf a (readFreq s.blk a) s := by
  rw [leafStep, if_neg positive]
  rfl

/-- The sum of the counts of the nodes in PQ, not wrapped. -/
def queueWeight (s : State) : ℕ := (s.tmp.pq.map fun i => (readNode s.blk i).count.toNat).sum

section

variable (a : Sym) (n : Count) (s : State)

theorem withLeaf_pq : (withLeaf a n s).tmp.pq = s.blk.nnode :: s.tmp.pq := by simp [withLeaf]
theorem withLeaf_root : (withLeaf a n s).blk.root = s.blk.root := by simp [withLeaf]

theorem readLeaf_withLeaf_same : readLeaf (withLeaf a n s).blk a = s.blk.nnode := by
  simp [withLeaf, readLeaf_setLeaf]

theorem readLeaf_withLeaf_other {x : Sym} (other : x ≠ a) : readLeaf (withLeaf a n s).blk x = readLeaf s.blk x := by
  simp [withLeaf, readLeaf_setLeaf, other]

theorem sameButTree_withLeaf : SameButTree s (withLeaf a n s) :=
  (sameButTree_setLeaf _ _ _).trans ((sameButTree_pqInsert _ _).trans (sameButTree_allocNode _ _))

variable {s} (room : s.blk.nnode ≠ nilIdx)
include room

theorem withLeaf_nnode : (withLeaf a n s).blk.nnode.toNat = s.blk.nnode.toNat + 1 := by
  simp [withLeaf, toNat_add_one_of_ne_nil room]

theorem readNode_withLeaf_new : readNode (withLeaf a n s).blk s.blk.nnode = leafNode a n :=
  readNode_allocNode_new _ (s := pqInsert _ (setLeaf a _ s)) room

theorem readNode_withLeaf_old {i : NodeIdx} (old : i.toNat < s.blk.nnode.toNat) :
    readNode (withLeaf a n s).blk i = readNode s.blk i :=
  readNode_allocNode_old _ (s := pqInsert _ (setLeaf a _ s)) room old

theorem queueWeight_withLeaf (queueOld : ∀ i ∈ s.tmp.pq, i.toNat < s.blk.nnode.toNat) :
    queueWeight (withLeaf a n s) = queueWeight s + n.toNat := by
  have old : (s.tmp.pq.map fun i => (readNode (withLeaf a n s).blk i).count.toNat) =
      s.tmp.pq.map fun i => (readNode s.blk i).count.toNat :=
    List.map_congr_left fun i hi => by rw [readNode_withLeaf_old a n room (queueOld i hi)]
  rw [queueWeight, withLeaf_pq, List.map_cons, List.sum_cons, old, readNode_withLeaf_new a n room]
  exact Nat.add_comm _ _

end

/-! ### The first `k` symbols -/

/-- The state after the first `k` symbols. -/
def leavesFrom (s : State) (k : ℕ) : State := ((List.range k).map (BitVec.ofNat 8)).foldl leafStep s

theorem leavesFrom_toNat_succ (s : State) (a : Sym) :
    leavesFrom s (a.toNat + 1) = leafStep (leavesFrom s a.toNat) a := by
  simp [leavesFrom, List.range_succ]

theorem leafPhase_eq (s : State) : leafPhase s = setNleaf (leavesFrom s 256).blk.nnode (leavesFrom s 256) := by
  simp only [leafPhase, leavesFrom, allSyms]

/-- What holds of `t` when the leaf phase that began at `s` has scanned the symbols below `k`. -/
structure LeavesBelow (s : State) (k : ℕ) (t : State) : Prop where
  same : SameButTree s t
  root : t.blk.root = s.blk.root
  count : t.blk.nnode.toNat = positives s.blk k
  absent : ∀ a : Sym, a.toNat < k → readFreq s.blk a = 0#64 → readLeaf t.blk a = nilIdx
  below : ∀ a : Sym, a.toNat < k → readFreq s.blk a ≠ 0#64 → (readLeaf t.blk a).toNat < t.blk.nnode.toNat
  present : ∀ a : Sym, a.toNat < k → readFreq s.blk a ≠ 0#64 →
    readNode t.blk (readLeaf t.blk a) = leafNode a (readFreq s.blk a)
  owned : ∀ i : NodeIdx, i.toNat < t.blk.nnode.toNat →
    ∃ a : Sym, a.toNat < k ∧ readFreq s.blk a ≠ 0#64 ∧ readLeaf t.blk a = i
  ascending : ∀ a x : Sym, readFreq s.blk a ≠ 0#64 → readFreq s.blk x ≠ 0#64 → a.toNat < x.toNat → x.toNat < k →
    (readLeaf t.blk a).toNat < (readLeaf t.blk x).toNat
  nodup : t.tmp.pq.Nodup
  queued : ∀ i : NodeIdx, i ∈ t.tmp.pq ↔ i.toNat < t.blk.nnode.toNat
  length : t.tmp.pq.length = t.blk.nnode.toNat
  weight : queueWeight t = freqSum s.blk k

theorem LeavesBelow.zero {s : State} (noNode : s.blk.nnode = 0#9) (noQueue : s.tmp.pq = []) : LeavesBelow s 0 s where
  same := .refl s
  root := rfl
  count := by rw [noNode]; rfl
  absent := by simp
  below := by simp
  present := by simp
  owned := by simp [noNode]
  ascending := by simp
  nodup := by simp [noQueue]
  queued := by simp [noNode, noQueue]
  length := by simp [noNode, noQueue]
  weight := by simp [queueWeight, freqSum, noQueue]

section

variable {s t : State} {a : Sym} (h : LeavesBelow s a.toNat t)
include h

/-- A symbol with a zero count adds no node. -/
theorem LeavesBelow.succ_absent (zero : readFreq s.blk a = 0#64) :
    LeavesBelow s (a.toNat + 1) (setLeaf a nilIdx t) := by
  have other : ∀ x : Sym, readFreq s.blk x ≠ 0#64 → x ≠ a := fun x positive e => positive (e ▸ zero)
  have earlier : ∀ x : Sym, x.toNat < a.toNat + 1 → readFreq s.blk x ≠ 0#64 → x.toNat < a.toNat :=
    fun x hx positive => (toNat_lt_succ_iff.1 hx).resolve_left (other x positive)
  have leafOther : ∀ x : Sym, x ≠ a → readLeaf (setLeaf a nilIdx t).blk x = readLeaf t.blk x := by
    intro x other
    rw [readLeaf_setLeaf, if_neg other]
  constructor
  case same => exact h.same.trans (sameButTree_setLeaf _ _ _)
  case root => exact h.root
  case count => rw [positives_toNat_succ, if_pos zero]; exact h.count
  case absent =>
    intro x hx xZero
    by_cases isA : x = a
    · rw [readLeaf_setLeaf, if_pos isA]
    · rw [leafOther x isA]
      exact h.absent x ((toNat_lt_succ_iff.1 hx).resolve_left isA) xZero
  case below =>
    intro x hx positive
    rw [leafOther x (other x positive)]
    exact h.below x (earlier x hx positive) positive
  case present =>
    intro x hx positive
    rw [leafOther x (other x positive)]
    exact h.present x (earlier x hx positive) positive
  case owned =>
    intro i hi
    obtain ⟨x, hx, positive, owns⟩ := h.owned i hi
    exact ⟨x, hx.trans (Nat.lt_succ_self _), positive, (leafOther x (other x positive)).trans owns⟩
  case ascending =>
    intro x y hx hy less hya
    rw [leafOther x (other x hx), leafOther y (other y hy)]
    exact h.ascending x y hx hy less (earlier y hya hy)
  case nodup => exact h.nodup
  case queued => exact h.queued
  case length => exact h.length
  case weight =>
    rw [freqSum_toNat_succ, zero]
    exact h.weight

theorem LeavesBelow.nnode_ne_nil : t.blk.nnode ≠ nilIdx := by
  refine ne_nil_of_toNat_lt (n := 256#9) ?_
  change _ < 256
  have := positives_le s.blk a.toNat
  have := h.count
  omega

/-- A symbol with a positive count adds its leaf at NNODE. -/
theorem LeavesBelow.succ_present (positive : readFreq s.blk a ≠ 0#64) :
    LeavesBelow s (a.toNat + 1) (withLeaf a (readFreq s.blk a) t) := by
  have room := h.nnode_ne_nil
  have nnode := withLeaf_nnode a (readFreq s.blk a) room
  have leafSame := readLeaf_withLeaf_same a (readFreq s.blk a) t
  have leafEarlier : ∀ x : Sym, x.toNat < a.toNat →
      readLeaf (withLeaf a (readFreq s.blk a) t).blk x = readLeaf t.blk x := by
    intro x hx
    refine readLeaf_withLeaf_other a _ t ?_
    rintro rfl
    exact lt_irrefl _ hx
  constructor
  case same => exact h.same.trans (sameButTree_withLeaf _ _ _)
  case root => exact (withLeaf_root _ _ _).trans h.root
  case count => rw [positives_toNat_succ, if_neg positive, nnode, h.count]
  case absent =>
    intro x hx zero
    obtain rfl | hx := toNat_lt_succ_iff.1 hx
    · exact absurd zero positive
    · rw [leafEarlier x hx, h.absent x hx zero]
  case below =>
    intro x hx xPositive
    rw [nnode]
    obtain rfl | hx := toNat_lt_succ_iff.1 hx
    · rw [leafSame]; exact Nat.lt_succ_self _
    · rw [leafEarlier x hx]; exact (h.below x hx xPositive).trans (Nat.lt_succ_self _)
  case present =>
    intro x hx xPositive
    obtain rfl | hx := toNat_lt_succ_iff.1 hx
    · rw [leafSame, readNode_withLeaf_new _ _ room]
    · rw [leafEarlier x hx, readNode_withLeaf_old _ _ room (h.below x hx xPositive), h.present x hx xPositive]
  case owned =>
    intro i hi
    rw [nnode] at hi
    obtain rfl | hi := toNat_lt_succ_iff.1 hi
    · exact ⟨a, Nat.lt_succ_self _, positive, leafSame⟩
    · obtain ⟨x, hx, xPositive, owns⟩ := h.owned i hi
      exact ⟨x, hx.trans (Nat.lt_succ_self _), xPositive, (leafEarlier x hx).trans owns⟩
  case ascending =>
    intro x y hx hy less hya
    obtain rfl | hya := toNat_lt_succ_iff.1 hya
    · rw [leafEarlier x less, leafSame]
      exact h.below x less hx
    · rw [leafEarlier x (less.trans hya), leafEarlier y hya]
      exact h.ascending x y hx hy less hya
  case nodup =>
    rw [withLeaf_pq]
    exact List.nodup_cons.2 ⟨fun mem => lt_irrefl _ ((h.queued _).1 mem), h.nodup⟩
  case queued =>
    intro i
    rw [withLeaf_pq, List.mem_cons, h.queued, nnode, toNat_lt_succ_iff]
  case length => rw [withLeaf_pq, List.length_cons, h.length, nnode]
  case weight =>
    rw [queueWeight_withLeaf _ _ room fun i => (h.queued i).1, h.weight, freqSum_toNat_succ]

end

/-- NLEAF is written last. -/
theorem LeavesBelow.setNleaf {s t : State} {k : ℕ} (h : LeavesBelow s k t) (n : BitVec 9) :
    LeavesBelow s k (setNleaf n t) := { h with same := h.same.trans (sameButTree_setNleaf n t) }

/-- The induction of the leaf phase. -/
theorem leavesBelow_leavesFrom {s : State} (noNode : s.blk.nnode = 0#9) (noQueue : s.tmp.pq = []) :
    ∀ k ≤ 256, LeavesBelow s k (leavesFrom s k) := by
  intro k
  induction k with
  | zero => exact fun _ => .zero noNode noQueue
  | succ k ih =>
    intro hk
    obtain ⟨a, rfl⟩ : ∃ a : Sym, k = a.toNat := ⟨BitVec.ofNat 8 k, (Nat.mod_eq_of_lt hk).symm⟩
    have h := ih (Nat.le_of_succ_le hk)
    rw [leavesFrom_toNat_succ]
    by_cases zero : readFreq s.blk a = 0#64
    · rw [leafStep_absent ((h.same.readFreq a).trans zero)]
      exact h.succ_absent zero
    · rw [leafStep_present (by rwa [h.same.readFreq]), h.same.readFreq]
      exact h.succ_present zero

/-- What the leaf phase leaves, of which R165 gives the most part. -/
theorem leafPhase_spec {s : State} (noNode : s.blk.nnode = 0#9) (noQueue : s.tmp.pq = []) :
    (leafPhase s).blk.nleaf = (leafPhase s).blk.nnode ∧ LeavesBelow s 256 (leafPhase s) := by
  have h := leavesBelow_leavesFrom noNode noQueue 256 le_rfl
  rw [leafPhase_eq]
  exact ⟨by rw [setNleaf_nleaf, setNleaf_nnode], h.setNleaf _⟩

/-- Settles O25: `LeavesBelow` at all 256 symbols. -/
theorem leafPhaseMakesTheLeaves : Obligations.LeafPhaseMakesTheLeaves := by
  intro s noNode noQueue
  obtain ⟨all, h⟩ := leafPhase_spec noNode noQueue
  dsimp only
  rw [all]
  exact ⟨rfl, h.count.trans (positives_256 _), fun a => h.absent a a.isLt,
    fun a positive => ⟨h.below a a.isLt positive, h.present a a.isLt positive⟩,
    fun a x ha hx less => h.ascending a x ha hx less x.isLt, h.nodup, h.queued⟩

end Sys2Proof.Machine
end

section
/-! The merge loop (R167, R168): each step joins the two least of the waiting nodes, and the forest it works on keeps an
invariant that says so of every step made. -/

namespace Sys2Proof.Machine

/-! ### One merge step -/

/-- The sum of the counts of two nodes, not wrapped. -/
def pairCount (b : Block) (i j : NodeIdx) : ℕ := (readNode b i).count.toNat + (readNode b j).count.toNat

/-- The INTERNAL node over the first and the second pop (R168). -/
def mergeNode (b : Block) (i j : NodeIdx) : Node :=
  { kind := .internal, sym := 0#8, count := BitVec.ofNat 64 (pairCount b i j), c0 := i, c1 := j, par := nilIdx }

/-- The state in which `a` and `b` have left PQ and a new node over them, at NNODE, has come into it. -/
def joined (a b : NodeIdx) (s : State) : State :=
  pqInsert s.blk.nnode (setPar b s.blk.nnode (setPar a s.blk.nnode
    (allocNode (mergeNode s.blk a b) (setPq ((s.tmp.pq.erase a).erase b) s))))

/-- Everything `MergeStep()` can do with two nodes waiting. -/
theorem mergeStep_cases {s : State} (two : 2 ≤ s.tmp.pq.length) :
    ∃ a b, LeastIn s.blk s.tmp.pq a ∧ LeastIn s.blk (s.tmp.pq.erase a) b ∧
      ((2 ^ 64 - 1 < pairCount s.blk a b ∧
          mergeStep s = (some .countOverflow, setPq ((s.tmp.pq.erase a).erase b) s)) ∨
        (pairCount s.blk a b ≤ 2 ^ 64 - 1 ∧ mergeStep s = (none, joined a b s))) := by
  obtain ⟨a, leastA, popA⟩ := popMin_least (s := s) (List.ne_nil_of_length_pos (by omega))
  have more : 0 < (s.tmp.pq.erase a).length := by rw [List.length_erase_of_mem leastA.mem]; omega
  obtain ⟨b, leastB, popB⟩ := popMin_least (s := setPq (s.tmp.pq.erase a) s) (List.ne_nil_of_length_pos more)
  refine ⟨a, b, leastA, leastB, ?_⟩
  simp only [mergeStep, popA, popB]
  by_cases overflows : 2 ^ 64 - 1 < pairCount s.blk a b
  · exact .inl ⟨overflows, if_pos overflows⟩
  · exact .inr ⟨not_lt.1 overflows, if_neg overflows⟩

/-! ### What a join leaves -/

section

variable {s : State} {a b : NodeIdx}

theorem joined_pq : (joined a b s).tmp.pq = s.blk.nnode :: (s.tmp.pq.erase a).erase b := rfl
theorem joined_nleaf : (joined a b s).blk.nleaf = s.blk.nleaf := by simp [joined]
theorem joined_root : (joined a b s).blk.root = s.blk.root := by simp [joined]

theorem joined_nnode (room : s.blk.nnode ≠ nilIdx) :
    (joined a b s).blk.nnode.toNat = s.blk.nnode.toNat + 1 := by
  simp [joined, toNat_add_one_of_ne_nil room]

theorem sameButTree_joined (s : State) (a b : NodeIdx) : SameButTree s (joined a b s) :=
  (sameButTree_setPq _ _).trans ((sameButTree_allocNode _ _).trans ((sameButTree_setPar _ _ _).trans
    ((sameButTree_setPar _ _ _).trans (sameButTree_pqInsert _ _))))

variable (room : s.blk.nnode ≠ nilIdx) (oldA : a.toNat < s.blk.nnode.toNat) (oldB : b.toNat < s.blk.nnode.toNat)
include room oldA oldB

theorem readNode_joined_new : readNode (joined a b s).blk s.blk.nnode = mergeNode s.blk a b := by
  have notA : s.blk.nnode ≠ a := by rintro rfl; omega
  have notB : s.blk.nnode ≠ b := by rintro rfl; omega
  rw [joined, pqInsert_blk, readNode_setPar _ _ _ _ (ne_nil_of_toNat_lt oldB), if_neg notB,
    readNode_setPar _ _ _ _ (ne_nil_of_toNat_lt oldA), if_neg notA]
  exact readNode_allocNode_new _ (s := setPq _ s) room

/-- Every older node keeps all but its parent, and that too unless it is one of the two joined. -/
theorem readNode_joined_old {x : NodeIdx} (oldX : x.toNat < s.blk.nnode.toNat) :
    readNode (joined a b s).blk x =
      { readNode s.blk x with par := if x = a ∨ x = b then s.blk.nnode else (readNode s.blk x).par } := by
  have old : ∀ y : NodeIdx, y.toNat < s.blk.nnode.toNat →
      readNode (allocNode (mergeNode s.blk a b) (setPq ((s.tmp.pq.erase a).erase b) s)).blk y = readNode s.blk y :=
    fun y hy => readNode_allocNode_old _ (s := setPq _ s) room hy
  rw [joined, pqInsert_blk, readNode_setPar _ _ _ _ (ne_nil_of_toNat_lt oldB),
    readNode_setPar _ _ _ _ (ne_nil_of_toNat_lt oldA), readNode_setPar _ _ _ _ (ne_nil_of_toNat_lt oldA),
    old x oldX, old a oldA, old b oldB]
  by_cases isB : x = b
  · subst isB
    by_cases isA : x = a
    · subst isA; simp
    · simp [isA]
  · by_cases isA : x = a
    · subst isA; simp [isB]
    · simp [isA, isB]

theorem par_joined_old {x : NodeIdx} (oldX : x.toNat < s.blk.nnode.toNat) :
    (readNode (joined a b s).blk x).par = if x = a ∨ x = b then s.blk.nnode else (readNode s.blk x).par := by
  rw [readNode_joined_old room oldA oldB oldX]

end

/-! ### The invariant -/

/-- The node at `i` is INTERNAL, and its children are the two nodes of least Key among those that were waiting when it was
made: those below `i` whose parent is not below `i` (R168). -/
structure JoinsTwoLeast (b : Block) (i : NodeIdx) : Prop where
  kind : (readNode b i).kind = .internal
  c0Below : (readNode b i).c0.toNat < i.toNat
  c0Par : (readNode b (readNode b i).c0).par = i
  c1Below : (readNode b i).c1.toNat < i.toNat
  c1Par : (readNode b (readNode b i).c1).par = i
  ordered : keyBefore b (readNode b i).c0 (readNode b i).c1
  least : ∀ j : NodeIdx, j.toNat < i.toNat → i.toNat ≤ (readNode b j).par.toNat →
    j ≠ (readNode b i).c0 → j ≠ (readNode b i).c1 → keyBefore b (readNode b i).c1 j

/-- Two entries of the arena that agree in all fields but `par`. -/
structure SameButPar (n m : Node) : Prop where
  kind : n.kind = m.kind
  sym : n.sym = m.sym
  count : n.count = m.count
  c0 : n.c0 = m.c0
  c1 : n.c1 = m.c1

/-- A join that has been made stays so when nodes without a parent get one above it. -/
theorem JoinsTwoLeast.of_parentsSet {b b' : Block} {i : NodeIdx} (h : JoinsTwoLeast b i) (notNil : i ≠ nilIdx)
    (same : ∀ j : NodeIdx, j.toNat ≤ i.toNat → SameButPar (readNode b' j) (readNode b j))
    (par : ∀ j : NodeIdx, j.toNat ≤ i.toNat → (readNode b' j).par = (readNode b j).par ∨
      ((readNode b j).par = nilIdx ∧ i.toNat < (readNode b' j).par.toNat)) :
    JoinsTwoLeast b' i := by
  have key : ∀ j : NodeIdx, j.toNat ≤ i.toNat → nodeKey b' j = nodeKey b j := fun j hj =>
    nodeKey_congr (same j hj).count (same j hj).sym
  have c0 : (readNode b' i).c0 = (readNode b i).c0 := (same i le_rfl).c0
  have c1 : (readNode b' i).c1 = (readNode b i).c1 := (same i le_rfl).c1
  have parentKept : ∀ j : NodeIdx, j.toNat < i.toNat → (readNode b j).par = i → (readNode b' j).par = i := by
    intro j hj hpar
    obtain kept | ⟨none, _⟩ := par j hj.le
    · exact kept.trans hpar
    · exact absurd (hpar.symm.trans none) notNil
  have below0 := h.c0Below
  have below1 := h.c1Below
  constructor
  case kind => exact (same i le_rfl).kind.trans h.kind
  case c0Below => rw [c0]; exact below0
  case c0Par => rw [c0]; exact parentKept _ below0 h.c0Par
  case c1Below => rw [c1]; exact below1
  case c1Par => rw [c1]; exact parentKept _ below1 h.c1Par
  case ordered =>
    have ordered := h.ordered
    rw [keyBefore_iff_nodeKey_lt] at ordered ⊢
    rwa [c0, c1, key _ below0.le, key _ below1.le]
  case least =>
    intro j hj waits not0 not1
    rw [c0] at not0
    rw [c1] at not1
    have waited : i.toNat ≤ (readNode b j).par.toNat := by
      obtain kept | ⟨none, _⟩ := par j hj.le
      · rwa [← kept]
      · have := toNat_lt_of_ne_nil notNil
        rw [none]
        exact this.le
    have less := h.least j hj waited not0 not1
    rw [keyBefore_iff_nodeKey_lt] at less ⊢
    rwa [c1, key _ below1.le, key j hj.le]

/-- What holds between two merge steps (R167, R168): PQ holds the nodes without a parent, their counts add up to the whole
table, and every INTERNAL node joins the two that were least. -/
structure Forest (s : State) : Prop where
  leafBound : s.blk.nleaf.toNat ≤ 256
  leavesBelow : s.blk.nleaf.toNat ≤ s.blk.nnode.toNat
  size : s.blk.nnode.toNat + s.tmp.pq.length = 2 * s.blk.nleaf.toNat
  nodup : s.tmp.pq.Nodup
  waiting : ∀ i : NodeIdx, i ∈ s.tmp.pq ↔ i.toNat < s.blk.nnode.toNat ∧ (readNode s.blk i).par = nilIdx
  parents : ∀ i : NodeIdx, i.toNat < s.blk.nnode.toNat → (readNode s.blk i).par = nilIdx ∨
    (i.toNat < (readNode s.blk i).par.toNat ∧ (readNode s.blk i).par.toNat < s.blk.nnode.toNat)
  ascending : ∀ i j : NodeIdx, i.toNat < j.toNat → j.toNat < s.blk.nleaf.toNat →
    (readNode s.blk i).sym.toNat < (readNode s.blk j).sym.toNat
  joins : ∀ i : NodeIdx, s.blk.nleaf.toNat ≤ i.toNat → i.toNat < s.blk.nnode.toNat → JoinsTwoLeast s.blk i
  weight : queueWeight s = totalFreq s.blk

/-- The forest of leaves that the leaf phase leaves. -/
theorem LeavesBelow.forest {s t : State} (h : LeavesBelow s 256 t) (all : t.blk.nleaf = t.blk.nnode) : Forest t := by
  have leafAt : ∀ i : NodeIdx, i.toNat < t.blk.nnode.toNat → ∃ a : Sym, readFreq s.blk a ≠ 0#64 ∧
      readLeaf t.blk a = i ∧ readNode t.blk i = leafNode a (readFreq s.blk a) := by
    intro i hi
    obtain ⟨a, _, positive, rfl⟩ := h.owned i hi
    exact ⟨a, positive, rfl, h.present a a.isLt positive⟩
  have noParent : ∀ i : NodeIdx, i.toNat < t.blk.nnode.toNat → (readNode t.blk i).par = nilIdx := by
    intro i hi
    obtain ⟨a, _, _, node⟩ := leafAt i hi
    rw [node]
    rfl
  constructor
  case leafBound => rw [all, h.count]; exact positives_le _ _
  case leavesBelow => rw [all]
  case size => rw [all, h.length]; omega
  case nodup => exact h.nodup
  case waiting => exact fun i => (h.queued i).trans ⟨fun hi => ⟨hi, noParent i hi⟩, And.left⟩
  case parents => exact fun i hi => .inl (noParent i hi)
  case ascending =>
    intro i j less hj
    rw [all] at hj
    obtain ⟨a, aPositive, aLeaf, aNode⟩ := leafAt i (by omega)
    obtain ⟨x, xPositive, xLeaf, xNode⟩ := leafAt j hj
    rw [aNode, xNode]
    change a.toNat < x.toNat
    by_contra notLess
    obtain equal | greater := (not_lt.1 notLess).eq_or_lt
    · rw [BitVec.eq_of_toNat_eq equal, aLeaf] at xLeaf
      rw [xLeaf] at less
      exact lt_irrefl _ less
    · have := h.ascending x a xPositive aPositive greater a.isLt
      rw [aLeaf, xLeaf] at this
      omega
  case joins =>
    intro i low high
    rw [all] at low
    omega
  case weight => rw [h.weight, freqSum_256, h.same.totalFreq]

/-- An index below the new NNODE is the new node's, one of the two joined, or another old one. -/
theorem toNat_lt_succ_cases (a b : NodeIdx) {x n : NodeIdx} (hx : x.toNat < n.toNat + 1) :
    x = n ∨ x = a ∨ x = b ∨ (x.toNat < n.toNat ∧ ¬ (x = a ∨ x = b)) := by
  have := toNat_lt_succ_iff.1 hx
  tauto

/-- `a` and `b` are the two nodes that the next merge step joins. -/
structure NextJoin (s : State) (a b : NodeIdx) : Prop where
  forest : Forest s
  two : 2 ≤ s.tmp.pq.length
  first : LeastIn s.blk s.tmp.pq a
  second : LeastIn s.blk (s.tmp.pq.erase a) b

section

variable {s : State} {a b : NodeIdx} (h : NextJoin s a b)
include h

theorem NextJoin.nnode_ne_nil : s.blk.nnode ≠ nilIdx := by
  intro full
  have size := h.forest.size
  have := h.forest.leafBound
  have := h.two
  rw [full] at size
  change 511 + _ = _ at size
  omega

theorem NextJoin.first_old : a.toNat < s.blk.nnode.toNat ∧ (readNode s.blk a).par = nilIdx :=
  (h.forest.waiting a).1 h.first.mem

theorem NextJoin.second_ne_first : b ≠ a := (h.forest.nodup.mem_erase_iff.1 h.second.mem).1

theorem NextJoin.second_old : b.toNat < s.blk.nnode.toNat ∧ (readNode s.blk b).par = nilIdx :=
  (h.forest.waiting b).1 (h.forest.nodup.mem_erase_iff.1 h.second.mem).2

theorem NextJoin.mem_rest (x : NodeIdx) : x ∈ (s.tmp.pq.erase a).erase b ↔ x ∈ s.tmp.pq ∧ x ≠ a ∧ x ≠ b := by
  rw [(h.forest.nodup.erase a).mem_erase_iff, h.forest.nodup.mem_erase_iff]
  tauto

theorem NextJoin.length_rest : ((s.tmp.pq.erase a).erase b).length + 2 = s.tmp.pq.length := by
  have := h.two
  rw [List.length_erase_of_mem h.second.mem, List.length_erase_of_mem h.first.mem]
  omega

/-- The counts of the two and of the rest make up the whole. -/
theorem NextJoin.pairCount_add_rest :
    pairCount s.blk a b + (((s.tmp.pq.erase a).erase b).map fun i => (readNode s.blk i).count.toNat).sum =
      queueWeight s := by
  rw [queueWeight, ← List.sum_map_erase _ h.first.mem, ← List.sum_map_erase _ h.second.mem, pairCount, Nat.add_assoc]

theorem NextJoin.readNode_new : readNode (joined a b s).blk s.blk.nnode = mergeNode s.blk a b :=
  readNode_joined_new h.nnode_ne_nil h.first_old.1 h.second_old.1

theorem NextJoin.sameButPar_old {x : NodeIdx} (old : x.toNat < s.blk.nnode.toNat) :
    SameButPar (readNode (joined a b s).blk x) (readNode s.blk x) := by
  rw [readNode_joined_old h.nnode_ne_nil h.first_old.1 h.second_old.1 old]
  exact ⟨rfl, rfl, rfl, rfl, rfl⟩

/-- The two joined get the new node as parent. -/
theorem NextJoin.par_joined {x : NodeIdx} (isOne : x = a ∨ x = b) :
    (readNode (joined a b s).blk x).par = s.blk.nnode := by
  have old : x.toNat < s.blk.nnode.toNat := by
    obtain rfl | rfl := isOne
    · exact h.first_old.1
    · exact h.second_old.1
  rw [par_joined_old h.nnode_ne_nil h.first_old.1 h.second_old.1 old, if_pos isOne]

theorem NextJoin.par_other {x : NodeIdx} (old : x.toNat < s.blk.nnode.toNat) (other : ¬ (x = a ∨ x = b)) :
    (readNode (joined a b s).blk x).par = (readNode s.blk x).par := by
  rw [par_joined_old h.nnode_ne_nil h.first_old.1 h.second_old.1 old, if_neg other]

theorem NextJoin.par_new : (readNode (joined a b s).blk s.blk.nnode).par = nilIdx := by
  rw [h.readNode_new]
  rfl

/-- The new node joins the two least: the nodes that waited are exactly those that are below it and get no other
parent. -/
theorem NextJoin.joinsTwoLeast_new : JoinsTwoLeast (joined a b s).blk s.blk.nnode := by
  have key : ∀ x : NodeIdx, x.toNat < s.blk.nnode.toNat → nodeKey (joined a b s).blk x = nodeKey s.blk x :=
    fun x old => nodeKey_congr (h.sameButPar_old old).count (h.sameButPar_old old).sym
  obtain ⟨oldA, parA⟩ := h.first_old
  obtain ⟨oldB, parB⟩ := h.second_old
  constructor <;> rw [h.readNode_new]
  case kind => rfl
  case c0Below => exact oldA
  case c0Par => exact h.par_joined (.inl rfl)
  case c1Below => exact oldB
  case c1Par => exact h.par_joined (.inr rfl)
  case ordered =>
    have before := h.first.least b (List.mem_of_mem_erase h.second.mem) h.second_ne_first
    rw [keyBefore_iff_nodeKey_lt] at before ⊢
    exact (key a oldA).trans_lt (before.trans_eq (key b oldB).symm)
  case least =>
    intro x old waits notA notB
    have waiting : x ∈ s.tmp.pq := by
      rw [h.par_other old (not_or.2 ⟨notA, notB⟩)] at waits
      obtain none | ⟨_, below⟩ := h.forest.parents x old
      · exact (h.forest.waiting x).2 ⟨old, none⟩
      · omega
    have before := h.second.least x (h.forest.nodup.mem_erase_iff.2 ⟨notA, waiting⟩) notB
    rw [keyBefore_iff_nodeKey_lt] at before ⊢
    exact (key b oldB).trans_lt (before.trans_eq (key x old).symm)

/-- A join made before stays. -/
theorem NextJoin.joinsTwoLeast_old {i : NodeIdx} (old : i.toNat < s.blk.nnode.toNat) (before : JoinsTwoLeast s.blk i) :
    JoinsTwoLeast (joined a b s).blk i := by
  refine before.of_parentsSet (ne_nil_of_toNat_lt old) (fun j hj => h.sameButPar_old (by omega)) fun j hj => ?_
  by_cases isOne : j = a ∨ j = b
  · rw [h.par_joined isOne]
    obtain rfl | rfl := isOne
    · exact .inr ⟨h.first_old.2, old⟩
    · exact .inr ⟨h.second_old.2, old⟩
  · exact .inl (h.par_other (by omega) isOne)

/-- The sum in the new node does not wrap, so the counts in PQ still add up to the whole table. -/
theorem NextJoin.weight_joined (fits : pairCount s.blk a b ≤ 2 ^ 64 - 1) :
    queueWeight (joined a b s) = queueWeight s := by
  have count : (readNode (joined a b s).blk s.blk.nnode).count.toNat = pairCount s.blk a b := by
    rw [h.readNode_new]
    exact Nat.mod_eq_of_lt (by omega)
  have rest : ((s.tmp.pq.erase a).erase b).map (fun i => (readNode (joined a b s).blk i).count.toNat) =
      ((s.tmp.pq.erase a).erase b).map (fun i => (readNode s.blk i).count.toNat) := by
    refine List.map_congr_left fun x hx => ?_
    obtain ⟨old, _⟩ := (h.forest.waiting x).1 ((h.mem_rest x).1 hx).1
    rw [(h.sameButPar_old old).count]
  rw [← h.pairCount_add_rest, queueWeight, joined_pq, List.map_cons, List.sum_cons, rest, count]

/-- A merge step without overflow keeps the invariant. -/
theorem NextJoin.forest_joined (fits : pairCount s.blk a b ≤ 2 ^ 64 - 1) : Forest (joined a b s) := by
  have nnode := joined_nnode (a := a) (b := b) h.nnode_ne_nil
  constructor
  case leafBound => rw [joined_nleaf]; exact h.forest.leafBound
  case leavesBelow => rw [nnode, joined_nleaf]; exact h.forest.leavesBelow.trans (Nat.le_succ _)
  case size =>
    have := h.length_rest
    rw [nnode, joined_pq, List.length_cons, joined_nleaf, ← h.forest.size]
    omega
  case nodup =>
    rw [joined_pq]
    refine List.nodup_cons.2 ⟨fun mem => ?_, (h.forest.nodup.erase a).erase b⟩
    exact lt_irrefl _ ((h.forest.waiting _).1 ((h.mem_rest _).1 mem).1).1
  case waiting =>
    intro x
    rw [joined_pq, List.mem_cons, h.mem_rest, h.forest.waiting, nnode]
    constructor
    · rintro (rfl | ⟨⟨old, none⟩, notA, notB⟩)
      · exact ⟨Nat.lt_succ_self _, h.par_new⟩
      · exact ⟨old.trans (Nat.lt_succ_self _), (h.par_other old (not_or.2 ⟨notA, notB⟩)).trans none⟩
    · rintro ⟨hx, none⟩
      obtain new | isA | isB | ⟨old, other⟩ := toNat_lt_succ_cases a b hx
      · exact .inl new
      · exact absurd ((h.par_joined (.inl isA)).symm.trans none) h.nnode_ne_nil
      · exact absurd ((h.par_joined (.inr isB)).symm.trans none) h.nnode_ne_nil
      · exact .inr ⟨⟨old, (h.par_other old other).symm.trans none⟩, not_or.1 other⟩
  case parents =>
    intro x hx
    rw [nnode] at hx ⊢
    obtain rfl | rfl | rfl | ⟨old, other⟩ := toNat_lt_succ_cases a b hx
    · exact .inl h.par_new
    · rw [h.par_joined (.inl rfl)]
      exact .inr ⟨h.first_old.1, Nat.lt_succ_self _⟩
    · rw [h.par_joined (.inr rfl)]
      exact .inr ⟨h.second_old.1, Nat.lt_succ_self _⟩
    · rw [h.par_other old other]
      exact (h.forest.parents x old).imp_right fun ⟨above, below⟩ => ⟨above, below.trans (Nat.lt_succ_self _)⟩
  case ascending =>
    intro i j less hj
    have := h.forest.leavesBelow
    rw [joined_nleaf] at hj
    rw [(h.sameButPar_old (by omega)).sym, (h.sameButPar_old (by omega)).sym]
    exact h.forest.ascending i j less hj
  case joins =>
    intro i low high
    rw [joined_nleaf] at low
    rw [nnode] at high
    obtain rfl | old := toNat_lt_succ_iff.1 high
    · exact h.joinsTwoLeast_new
    · exact h.joinsTwoLeast_old old (h.forest.joins i low old)
  case weight => rw [h.weight_joined fits, h.forest.weight, (sameButTree_joined s a b).totalFreq]

end

/-! ### The loop -/

/-- `MergeLoop()` ends with one node waiting, or with COUNT_OVERFLOW and a table whose sum does not fit. The bound `n` is
no bound in effect: each step takes one node from PQ (R285). -/
theorem mergeLoop_spec (n : ℕ) {s : State} (h : Forest s) (waits : s.tmp.pq ≠ []) (bound : s.tmp.pq.length ≤ n + 1) :
    ∃ t, SameButTree s t ∧ t.blk.root = s.blk.root ∧
      ((mergeLoop n s = (none, t) ∧ Forest t ∧ t.tmp.pq.length = 1) ∨
        (mergeLoop n s = (some .countOverflow, t) ∧ 2 ^ 64 - 1 < totalFreq s.blk)) := by
  have one := List.length_pos_iff.2 waits
  induction n generalizing s with
  | zero => exact ⟨s, .refl s, rfl, .inl ⟨rfl, h, by omega⟩⟩
  | succ n ih =>
    rw [mergeLoop]
    split
    case isFalse single => exact ⟨s, .refl s, rfl, .inl ⟨rfl, h, by omega⟩⟩
    case isTrue two =>
      obtain ⟨a, b, first, second, outcome⟩ := mergeStep_cases two
      have next : NextJoin s a b := ⟨h, two, first, second⟩
      obtain ⟨overflows, e⟩ | ⟨fits, e⟩ := outcome
      · rw [e]
        have := next.pairCount_add_rest
        rw [h.weight] at this
        exact ⟨setPq ((s.tmp.pq.erase a).erase b) s, sameButTree_setPq _ s, rfl, .inr ⟨rfl, by omega⟩⟩
      · rw [e]
        have same := sameButTree_joined s a b
        have length : (joined a b s).tmp.pq.length + 1 = s.tmp.pq.length := next.length_rest
        obtain ⟨t, same', root, outcome⟩ := ih (next.forest_joined fits) (List.cons_ne_nil _ _) (by omega) (by omega)
        rw [same.totalFreq] at outcome
        exact ⟨t, same.trans same', root.trans joined_root, outcome⟩

end Sys2Proof.Machine
end

section
/-! BUILD from its phases (R160, R166, R169 to R171): when it completes, and what tree it leaves. -/

namespace Sys2Proof.Machine

/-! ### What each command does once past the gate on FAULT -/

/-- The state in which BUILD has scanned the table (R160, R165). `buildStart_spec` says what it is; the 256 steps behind
it are never to be computed, so it does not unfold by itself. -/
@[irreducible] def buildStart (s : State) : State := leafPhase (setPq [] (setNnode 0#9 s))

section

variable {s : State} (isLive : live s)
include isLive

/-- BUILD of a table with no leaf makes no merge step (R166). -/
theorem exec_build_noLeaf (unbuilt : s.blk.tvalid = false) (noLeaf : (buildStart s).blk.nleaf = 0#9) :
    exec .build s = .next (pushRsp stOk 0#64 (setTvalid (setRoot nilIdx (buildStart s)))) := by
  change execBuild s = _
  unfold buildStart at noLeaf ⊢
  simp only [execBuild, whenLive_live isLive, unbuilt, Bool.false_eq_true, if_false, if_pos noLeaf, respond_eq]

/-- BUILD whose merge loop makes no fault goes on to the root phase (R169, R170). -/
theorem exec_build_merged {u : State} (unbuilt : s.blk.tvalid = false) (leaf : (buildStart s).blk.nleaf ≠ 0#9)
    (loop : mergeLoop 255 (buildStart s) = (none, u)) :
    exec .build s = .next (pushRsp stOk 0#64 (setTvalid (rootPhase u))) := by
  change execBuild s = _
  unfold buildStart at leaf loop
  simp only [execBuild, whenLive_live isLive, unbuilt, Bool.false_eq_true, if_false, if_neg leaf, loop, respond_eq]

/-- BUILD whose merge loop faults takes the fault there (R171). -/
theorem exec_build_fault {u : State} {c : Cause} (unbuilt : s.blk.tvalid = false)
    (leaf : (buildStart s).blk.nleaf ≠ 0#9) (loop : mergeLoop 255 (buildStart s) = (some c, u)) :
    exec .build s = raise c u := by
  change execBuild s = _
  unfold buildStart at leaf loop
  simp only [execBuild, whenLive_live isLive, unbuilt, Bool.false_eq_true, if_false, if_neg leaf, loop]

/-- ENCODE without a tree faults (R190). -/
theorem exec_encode_noTree (a : Sym) (noTree : s.blk.tvalid = false ∨ s.blk.root = nilIdx) :
    exec (.encode a) s = raise .noTree s := by
  change execEncode a s = _
  rw [execEncode, whenLive_live isLive, if_pos noTree]

/-- DECODE without a tree faults (R193). -/
theorem exec_decode_noTree (noTree : s.blk.tvalid = false ∨ s.blk.root = nilIdx) :
    exec .decode s = raise .noTree s := by
  change execDecode s = _
  rw [execDecode, whenLive_live isLive, if_pos noTree]

end

/-! ### The leaf phase of BUILD -/

theorem LeavesBelow.of_cleared {s t : State} {k : ℕ} (h : LeavesBelow (setPq [] (setNnode 0#9 s)) k t) :
    LeavesBelow s k t :=
  { h with same := (sameButTree_setNnode _ _).trans ((sameButTree_setPq _ _).trans h.same) }

theorem buildStart_spec (s : State) :
    (buildStart s).blk.nleaf = (buildStart s).blk.nnode ∧ LeavesBelow s 256 (buildStart s) := by
  unfold buildStart
  exact (leafPhase_spec (s := setPq [] (setNnode 0#9 s)) rfl rfl).imp_right LeavesBelow.of_cleared

/-! ### The root phase (R169) -/

theorem popMin_singleton {s : State} {r : NodeIdx} (last : s.tmp.pq = [r]) : popMin s = some (r, setPq [] s) := by
  simp [popMin, last, leastKey]

/-- The synthetic root over a lone leaf. -/
def wrapNode (b : Block) (r : NodeIdx) : Node :=
  { kind := .internal, sym := 0#8, count := (readNode b r).count, c0 := r, c1 := nilIdx, par := nilIdx }

theorem rootPhase_internal {s : State} {r : NodeIdx} (last : s.tmp.pq = [r])
    (internal : (readNode s.blk r).kind = .internal) : rootPhase s = setRoot r (setPq [] s) := by
  simp [rootPhase, popMin_singleton last, internal]

/-- The state in which the lone leaf `r` has left PQ and hangs under a synthetic root at NNODE. -/
def wrapped (r : NodeIdx) (s : State) : State :=
  setRoot s.blk.nnode (setPar r s.blk.nnode (allocNode (wrapNode s.blk r) (setPq [] s)))

theorem rootPhase_leaf {s : State} {r : NodeIdx} (last : s.tmp.pq = [r]) (leaf : (readNode s.blk r).kind = .leaf) :
    rootPhase s = wrapped r s := by
  simp [rootPhase, popMin_singleton last, leaf, wrapNode, wrapped]

section

variable (r : NodeIdx) (s : State)

theorem wrapped_pq : (wrapped r s).tmp.pq = [] := by simp [wrapped]
theorem wrapped_nnode : (wrapped r s).blk.nnode = s.blk.nnode + 1#9 := by simp [wrapped]
theorem wrapped_nleaf : (wrapped r s).blk.nleaf = s.blk.nleaf := by simp [wrapped]
theorem wrapped_root : (wrapped r s).blk.root = s.blk.nnode := by simp [wrapped]
theorem wrapped_readLeaf (a : Sym) : readLeaf (wrapped r s).blk a = readLeaf s.blk a := by simp [wrapped]

variable {r s} (room : s.blk.nnode ≠ nilIdx) (old : r.toNat < s.blk.nnode.toNat)
include room old

theorem readNode_wrapped_root : readNode (wrapped r s).blk s.blk.nnode = wrapNode s.blk r := by
  have other : s.blk.nnode ≠ r := by rintro rfl; exact lt_irrefl _ old
  rw [wrapped, setRoot_readNode, readNode_setPar _ _ _ _ (ne_nil_of_toNat_lt old), if_neg other]
  exact readNode_allocNode_new _ (s := setPq _ s) room

theorem readNode_wrapped_leaf :
    readNode (wrapped r s).blk r = { readNode s.blk r with par := s.blk.nnode } := by
  have kept : readNode (allocNode (wrapNode s.blk r) (setPq [] s)).blk r = readNode s.blk r :=
    readNode_allocNode_old _ (s := setPq _ s) room old
  rw [wrapped, setRoot_readNode, readNode_setPar _ _ _ _ (ne_nil_of_toNat_lt old), if_pos rfl, kept]

end

/-- Either way the last node has left PQ, and NLEAF stays. -/
theorem rootPhase_pq_nleaf {s : State} (one : s.tmp.pq.length = 1) :
    (rootPhase s).tmp.pq = [] ∧ (rootPhase s).blk.nleaf = s.blk.nleaf := by
  obtain ⟨r, last⟩ := List.length_eq_one_iff.1 one
  cases kind : (readNode s.blk r).kind with
  | leaf => rw [rootPhase_leaf last kind]; exact ⟨wrapped_pq r s, wrapped_nleaf r s⟩
  | internal => rw [rootPhase_internal last kind]; exact ⟨rfl, rfl⟩

/-- With two leaves or more, the one node left waiting is the last one made, which joins two others. -/
theorem Forest.last_internal {s : State} {r : NodeIdx} (h : Forest s) (last : s.tmp.pq = [r])
    (two : 2 ≤ s.blk.nleaf.toNat) : (readNode s.blk r).kind = .internal := by
  have size := h.size
  rw [last, List.length_singleton] at size
  have top : (s.blk.nnode - 1#9).toNat = s.blk.nnode.toNat - 1 := by
    rw [BitVec.toNat_sub_of_le (by rw [BitVec.le_def]; change 1 ≤ _; omega)]
    rfl
  have noParent : (readNode s.blk (s.blk.nnode - 1#9)).par = nilIdx := by
    obtain none | ⟨above, below⟩ := h.parents (s.blk.nnode - 1#9) (by omega)
    · exact none
    · omega
  have isLast : s.blk.nnode - 1#9 ∈ [r] := last ▸ (h.waiting _).2 ⟨by omega, noParent⟩
  rw [List.mem_singleton] at isLast
  exact (h.joins r (by rw [← isLast]; omega) (by rw [← isLast]; omega)).kind

/-- The node left waiting counts the whole table, so the sum fits. -/
theorem Forest.totalFreq_lt {s : State} (h : Forest s) (one : s.tmp.pq.length = 1) : totalFreq s.blk < 2 ^ 64 := by
  obtain ⟨r, last⟩ := List.length_eq_one_iff.1 one
  rw [← h.weight, queueWeight, last, List.map_singleton, List.sum_singleton]
  exact (readNode s.blk r).count.isLt

/-! ### BUILD as a whole -/

/-- Everything BUILD can do in a live block whose table is not frozen. -/
theorem exec_build_cases {s : State} (isLive : live s) (unbuilt : s.blk.tvalid = false) :
    ((buildStart s).blk.nleaf = 0#9 ∧
      exec .build s = .next (pushRsp stOk 0#64 (setTvalid (setRoot nilIdx (buildStart s))))) ∨
    (∃ u, SameButTree s u ∧ Forest u ∧ u.tmp.pq.length = 1 ∧
      exec .build s = .next (pushRsp stOk 0#64 (setTvalid (rootPhase u)))) ∨
    (∃ u, SameButTree s u ∧ u.blk.root = s.blk.root ∧ 2 ^ 64 - 1 < totalFreq s.blk ∧
      exec .build s = raise .countOverflow u) := by
  by_cases noLeaf : (buildStart s).blk.nleaf = 0#9
  · exact .inl ⟨noLeaf, exec_build_noLeaf isLive unbuilt noLeaf⟩
  have h := (buildStart_spec s).2
  have nleaf := (buildStart_spec s).1
  have forest := h.forest nleaf
  have pos : (buildStart s).blk.nleaf.toNat ≠ 0 := fun e => noLeaf (BitVec.eq_of_toNat_eq e)
  have bound := forest.leafBound
  have length := h.length
  rw [← nleaf] at length
  obtain ⟨u, same, root, ⟨loop, forest', one⟩ | ⟨loop, overflows⟩⟩ := mergeLoop_spec 255 forest
    (List.ne_nil_of_length_pos (by omega)) (by omega)
  · exact .inr (.inl ⟨u, h.same.trans same, forest', one, exec_build_merged isLive unbuilt noLeaf loop⟩)
  · rw [h.same.totalFreq] at overflows
    exact .inr (.inr ⟨u, h.same.trans same, root.trans h.root, overflows, exec_build_fault isLive unbuilt noLeaf loop⟩)

/-! ### When it completes (R170, R171) -/

/-- The state a completed BUILD leaves, written as an update of the one it began at. -/
theorem SameButTree.completed {s t : State} (h : SameButTree s t) (noQueue : t.tmp.pq = []) :
    ∃ node nnode nleaf root leaf, Machine.setTvalid t =
      { s with blk := { s.blk with node := node, nnode := nnode, nleaf := nleaf, root := root, leaf := leaf,
                                   tvalid := true },
               tmp := { s.tmp with pq := [] } } := by
  obtain ⟨node, nnode, nleaf, root, leaf, pq, rfl⟩ := h
  obtain rfl : pq = [] := noQueue
  exact ⟨node, nnode, nleaf, root, leaf, rfl⟩

/-- The state a BUILD that overflowed leaves, written likewise. -/
theorem SameButTree.overflowed {s t : State} (h : SameButTree s t) (sameRoot : t.blk.root = s.blk.root) :
    ∃ node nnode nleaf leaf pq, enterFault .countOverflow t =
      { s with blk := { s.blk with node := node, nnode := nnode, nleaf := nleaf, leaf := leaf,
                                   fault := true, cause := 0x22#8 },
               tmp := { s.tmp with pq := pq } } := by
  obtain ⟨node, nnode, nleaf, root, leaf, pq, rfl⟩ := h
  obtain rfl : root = s.blk.root := sameRoot
  exact ⟨node, nnode, nleaf, leaf, pq, rfl⟩

/-- A table without a leaf sums to 0. -/
theorem totalFreq_eq_zero_of_noLeaf {s : State} (noLeaf : (buildStart s).blk.nleaf = 0#9) :
    (buildStart s).tmp.pq = [] ∧ totalFreq s.blk = 0 := by
  have h := (buildStart_spec s).2
  have noQueue : (buildStart s).tmp.pq = [] := by
    rw [← List.length_eq_zero_iff, h.length, ← (buildStart_spec s).1, noLeaf]
    rfl
  refine ⟨noQueue, ?_⟩
  rw [← freqSum_256, ← h.weight, queueWeight, noQueue]
  rfl

/-- Settles O22: the overflow of a merge step is one of the whole sum, and the last node waiting counts that sum. -/
theorem buildCompletesExactlyWhenTheSumFits : Obligations.BuildCompletesExactlyWhenTheSumFits := by
  intro s isLive unbuilt
  obtain ⟨noLeaf, e⟩ | ⟨u, same, forest, one, e⟩ | ⟨u, same, sameRoot, overflows, e⟩ := exec_build_cases isLive unbuilt
  · obtain ⟨noQueue, zero⟩ := totalFreq_eq_zero_of_noLeaf noLeaf
    refine ⟨fun _ => ?_, fun overflows => absurd overflows (by omega)⟩
    obtain ⟨node, nnode, nleaf, root, leaf, done⟩ :=
      ((buildStart_spec s).2.same.trans (sameButTree_setRoot nilIdx _)).completed noQueue
    exact ⟨node, nnode, nleaf, root, leaf, by rw [e, done]; rfl⟩
  · have fits := forest.totalFreq_lt one
    rw [same.totalFreq] at fits
    refine ⟨fun _ => ?_, fun overflows => absurd overflows (by omega)⟩
    obtain ⟨node, nnode, nleaf, root, leaf, done⟩ :=
      (same.trans (sameButTree_rootPhase u)).completed (rootPhase_pq_nleaf one).1
    exact ⟨node, nnode, nleaf, root, leaf, by rw [e, done]; rfl⟩
  · refine ⟨fun fits => absurd fits (by omega), fun _ => ?_⟩
    obtain ⟨node, nnode, nleaf, leaf, pq, done⟩ := same.overflowed sameRoot
    exact ⟨node, nnode, nleaf, leaf, pq, by rw [e, raise_eq, done]; rfl⟩

/-! ### The tree it leaves -/

/-- Settles O26: the forest of the merge loop, whose last node the root phase makes the root. -/
theorem buildMergesTheTwoLeast : Obligations.BuildMergesTheTwoLeast := by
  intro s t isLive unbuilt built complete two
  obtain ⟨noLeaf, e⟩ | ⟨u, same, forest, one, e⟩ | ⟨u, same, _, _, e⟩ := exec_build_cases isLive unbuilt
  · obtain rfl : pushRsp stOk 0#64 (setTvalid (setRoot nilIdx (buildStart s))) = t := by
      rw [e] at built
      injection built
    change 2 ≤ (buildStart s).blk.nleaf.toNat at two
    rw [noLeaf] at two
    exact absurd two (by decide)
  · obtain rfl : pushRsp stOk 0#64 (setTvalid (rootPhase u)) = t := by
      rw [e] at built
      injection built
    obtain ⟨r, last⟩ := List.length_eq_one_iff.1 one
    have twoLeaves : 2 ≤ u.blk.nleaf.toNat := by
      rw [← (rootPhase_pq_nleaf one).2]
      exact two
    rw [rootPhase_internal last (forest.last_internal last twoLeaves)]
    refine ⟨forest.ascending, fun i low high => ?_⟩
    have join := forest.joins i low high
    exact ⟨join.c0Below, join.c0Par, join.c1Below, join.c1Par, join.ordered, join.least⟩
  · obtain ⟨_, _, _, _, _, _, rfl⟩ := same
    rw [e] at built
    cases built
    exact absurd (unbuilt.symm.trans complete) (by decide)

/-- Settles O28: no node is owned by a symbol, so there is none, and the codec's test of ROOT fails. -/
theorem emptyTableBuildsNoTree : Obligations.EmptyTableBuildsNoTree := by
  intro s isLive unbuilt empty
  have h := (buildStart_spec s).2
  have noNode : (buildStart s).blk.nnode = 0#9 := by
    by_contra some
    have pos : (buildStart s).blk.nnode.toNat ≠ 0 := fun e => some (BitVec.eq_of_toNat_eq e)
    obtain ⟨a, _, positive, _⟩ := h.owned 0#9 (Nat.pos_of_ne_zero pos)
    exact positive (empty a)
  have noLeaf : (buildStart s).blk.nleaf = 0#9 := (buildStart_spec s).1.trans noNode
  have absent : ∀ a, readLeaf (buildStart s).blk a = nilIdx := fun a => h.absent a a.isLt (empty a)
  have same := h.same
  have e := exec_build_noLeaf isLive unbuilt noLeaf
  generalize buildStart s = u at *
  have stillLive : live (pushRsp stOk 0#64 (setTvalid (setRoot nilIdx u))) := by
    obtain ⟨_, _, _, _, _, _, rfl⟩ := same
    exact isLive
  have rsps : u.port = s.port := by
    obtain ⟨_, _, _, _, _, _, rfl⟩ := same
    rfl
  refine ⟨_, e, ?_, rfl, noLeaf, noNode, rfl, absent, fun a => exec_encode_noTree stillLive a (.inr rfl),
    exec_decode_noTree stillLive (.inr rfl), exec_gettotal_noRoot stillLive rfl⟩
  exact congrArg (fun p : Port => p.rsps ++ [⟨0x00#8, 0#64⟩]) rsps

/-! ### The tree of one symbol (R169) -/

/-- With one positive count, the one leaf is NODE[0] and waits alone. -/
theorem LeavesBelow.single {s t : State} (h : LeavesBelow s 256 t) {a : Sym} (positive : readFreq s.blk a ≠ 0#64)
    (only : ∀ x : Sym, x ≠ a → readFreq s.blk x = 0#64) :
    t.blk.nnode = 1#9 ∧ readLeaf t.blk a = 0#9 ∧ t.tmp.pq = [0#9] ∧
      readNode t.blk 0#9 = leafNode a (readFreq s.blk a) := by
  have owner : ∀ i : NodeIdx, i.toNat < t.blk.nnode.toNat → readLeaf t.blk a = i := by
    intro i hi
    obtain ⟨x, _, xPositive, owns⟩ := h.owned i hi
    obtain rfl : x = a := not_not.1 fun other => xPositive (only x other)
    exact owns
  have below := h.below a a.isLt positive
  have leafIs : readLeaf t.blk a = 0#9 := owner 0#9 (by change 0 < _; omega)
  have one : t.blk.nnode.toNat = 1 := by
    by_contra more
    have := owner 1#9 (by change 1 < _; omega)
    rw [leafIs] at this
    exact absurd this (by decide)
  have queue : t.tmp.pq = [0#9] := by
    obtain ⟨r, last⟩ := List.length_eq_one_iff.1 (h.length.trans one)
    have mem : 0#9 ∈ t.tmp.pq := (h.queued _).2 (by change 0 < _; omega)
    rw [last, List.mem_singleton] at mem
    rw [last, mem]
  exact ⟨BitVec.eq_of_toNat_eq one, leafIs, queue, leafIs ▸ h.present a a.isLt positive⟩

/-- The walk of R191 from a leaf at NODE[0] whose parent is a root at NODE[1] with no "1" child. -/
theorem code_of_single {b : Block} {a : Sym} (leaf : readLeaf b a = 0#9) (par0 : (readNode b 0#9).par = 1#9)
    (par1 : (readNode b 1#9).par = nilIdx) (c1 : (readNode b 1#9).c1 = nilIdx) : code b a = [false] := by
  have notNil : (1#9 : NodeIdx) ≠ nilIdx := by decide
  have notLeaf : (nilIdx == 0#9) = false := by decide
  simp [code, leaf, codeUp, par0, par1, c1, notNil, notLeaf]

/-- Settles O29: the lone leaf makes the merge loop stop at once, and the root phase wrap it. -/
theorem oneSymbolTreeHasASyntheticRoot : Obligations.OneSymbolTreeHasASyntheticRoot := by
  intro s a isLive unbuilt positive only
  obtain ⟨nnode, leafIs, queue, node⟩ := (buildStart_spec s).2.single positive only
  have nleaf : (buildStart s).blk.nleaf = 1#9 := (buildStart_spec s).1.trans nnode
  have loop : mergeLoop 255 (buildStart s) = (none, buildStart s) := by
    rw [mergeLoop, queue]
    rfl
  have e := exec_build_merged isLive unbuilt (by rw [nleaf]; decide) loop
  generalize buildStart s = u at *
  rw [rootPhase_leaf queue (by rw [node]; rfl)] at e
  have room : u.blk.nnode ≠ nilIdx := by rw [nnode]; decide
  have old : (0#9).toNat < u.blk.nnode.toNat := by rw [nnode]; decide
  have node0 := readNode_wrapped_leaf room old
  have node1 := readNode_wrapped_root room old
  rw [node, nnode] at node0
  rw [wrapNode, node, nnode] at node1
  refine ⟨_, e, rfl, ?_, ?_, ?_, ?_, node0, node1, ?_⟩
  · exact (wrapped_nleaf 0#9 u).trans nleaf
  · exact (wrapped_nnode 0#9 u).trans (by rw [nnode]; rfl)
  · exact (wrapped_root 0#9 u).trans nnode
  · exact (wrapped_readLeaf 0#9 u a).trans leafIs
  · exact code_of_single ((wrapped_readLeaf 0#9 u a).trans leafIs) (congrArg Node.par node0) (congrArg Node.par node1)
      (congrArg Node.c1 node1)

end Sys2Proof.Machine
end

section
/-! The paths of a tree that meets the invariants of R172, and the codes as these paths (R176, R191). -/

namespace Sys2Proof.Machine

/-- `i` is an INTERNAL node of the tree: NODE[NLEAF .. NNODE−1] (R172). -/
def IsInner (b : Block) (i : NodeIdx) : Prop := b.nleaf.toNat ≤ i.toNat ∧ i.toNat < b.nnode.toNat

/-- The bits lead from ROOT down to the node, through INTERNAL nodes only and never to NIL: the descent of R193. -/
inductive Reaches (b : Block) : List Bool → NodeIdx → Prop
  | root : Reaches b [] b.root
  | step {w : List Bool} {p : NodeIdx} (path : Reaches b w p) (inner : IsInner b p) (bit : Bool)
      (inTree : child b p bit ≠ nilIdx) : Reaches b (w ++ [bit]) (child b p bit)

/-! ### Paths in any arena -/

section

variable {b : Block} {w v : List Bool} {n : NodeIdx}

theorem Reaches.followBits (path : Reaches b w n) : followBits b b.root w = n := by
  induction path with
  | root => rfl
  | step _ _ bit _ ih =>
    rw [Machine.followBits, List.foldl_append]
    exact congrArg (child b · bit) ih

/-- The last step of a path. -/
theorem Reaches.last {bit : Bool} (path : Reaches b (w ++ [bit]) n) :
    ∃ p, Reaches b w p ∧ IsInner b p ∧ n = child b p bit ∧ n ≠ nilIdx := by
  generalize whole : w ++ [bit] = u at path
  cases path with
  | root => simp at whole
  | step path inner last inTree =>
    obtain ⟨rfl, same⟩ := List.append_inj' whole rfl
    obtain rfl : bit = last := by simpa using same
    exact ⟨_, path, inner, rfl, inTree⟩

/-- A beginning of a path is a path, to an INTERNAL node unless it is the whole. -/
theorem Reaches.beginning (path : Reaches b (w ++ v) n) : ∃ m, Reaches b w m ∧ (v = [] ∨ IsInner b m) := by
  induction v using List.reverseRecOn generalizing n with
  | nil => exact ⟨n, by simpa using path, .inl rfl⟩
  | append_singleton v bit ih =>
    obtain ⟨p, before, inner, _⟩ := Reaches.last (w := w ++ v) (by simpa using path)
    obtain ⟨m, start, rfl | inside⟩ := ih before
    · rw [List.append_nil] at before
      exact ⟨p, before, .inr inner⟩
    · exact ⟨m, start, .inr inside⟩

end

/-! ### The numbers of a tree -/

section

variable {b : Block} (tree : TreeOk b)
include tree

theorem TreeOk.nleaf_pos (hasRoot : b.root ≠ nilIdx) : 0 < b.nleaf.toNat := by
  by_contra none
  have noLeaf : b.nleaf = 0#9 := BitVec.eq_of_toNat_eq (by simpa using none)
  exact hasRoot (by rw [tree.rootIs, if_pos noLeaf])

/-- There are at most 256 leaves, because there are 256 symbols. -/
theorem TreeOk.nleaf_le : b.nleaf.toNat ≤ 256 := by
  rw [tree.leafCount]
  exact (List.length_filter_le _ _).trans (by simp)

/-- R172 (h), with a leaf. -/
theorem TreeOk.nnode_eq (hasRoot : b.root ≠ nilIdx) :
    b.nnode.toNat = if b.nleaf.toNat = 1 then 2 else 2 * b.nleaf.toNat - 1 := by
  rw [tree.nodeCount, if_neg (tree.nleaf_pos hasRoot).ne']

theorem TreeOk.nleaf_lt_nnode (hasRoot : b.root ≠ nilIdx) : b.nleaf.toNat < b.nnode.toNat := by
  have positive := tree.nleaf_pos hasRoot
  rw [tree.nnode_eq hasRoot]
  split <;> omega

/-- The root is the last node. -/
theorem TreeOk.root_toNat (hasRoot : b.root ≠ nilIdx) : b.root.toNat + 1 = b.nnode.toNat := by
  have less := tree.nleaf_lt_nnode hasRoot
  have leaf : b.nleaf ≠ 0#9 := fun none => hasRoot (by rw [tree.rootIs, if_pos none])
  rw [tree.rootIs, if_neg leaf]
  bv_omega

theorem TreeOk.isInner_root (hasRoot : b.root ≠ nilIdx) : IsInner b b.root := by
  have last := tree.root_toNat hasRoot
  have less := tree.nleaf_lt_nnode hasRoot
  exact ⟨by omega, by omega⟩

/-- No node of the tree has the index NIL. -/
theorem TreeOk.nnode_le : b.nnode.toNat ≤ 511 := by
  have few := tree.nleaf_le
  rw [tree.nodeCount]
  split
  · omega
  · split <;> omega

theorem TreeOk.ne_nil {i : NodeIdx} (node : i.toNat < b.nnode.toNat) : i ≠ nilIdx := by
  rintro rfl
  exact absurd tree.nnode_le (Nat.not_le_of_lt node)

/-! ### Leaves and children -/

/-- R172 (g). -/
theorem TreeOk.leaf_of_symbol {a : Sym} (has : readLeaf b a ≠ nilIdx) :
    (readLeaf b a).toNat < b.nleaf.toNat ∧ (readNode b (readLeaf b a)).sym = a := by
  have index := tree.leafIndex a
  split at index
  · exact absurd index has
  · exact index

theorem TreeOk.root_ne_nil {a : Sym} (has : readLeaf b a ≠ nilIdx) : b.root ≠ nilIdx := by
  intro noRoot
  have below := (tree.leaf_of_symbol has).1
  have count := tree.nodeCount
  have rootIs := tree.rootIs
  by_cases none : b.nleaf = 0#9
  · rw [none] at below
    exact absurd below (Nat.not_lt_zero _)
  · rw [if_neg none, noRoot] at rootIs
    have few := tree.nnode_le
    have some : b.nnode.toNat ≠ 0 := by split at count <;> [omega; split at count <;> omega]
    bv_omega

/-- A node of kind LEAF is the leaf of its symbol. -/
theorem TreeOk.readLeaf_sym {i : NodeIdx} (node : i.toNat < b.nnode.toNat) (leaf : (readNode b i).kind = .leaf) :
    i.toNat < b.nleaf.toNat ∧ readLeaf b (readNode b i).sym = i := by
  have isLeaf : i.toNat < b.nleaf.toNat := by
    by_contra inner
    rw [(tree.inner i (by omega) node).1] at leaf
    cases leaf
  obtain ⟨_, _, _, _, _, owns⟩ := tree.leaves i isLeaf
  exact ⟨isLeaf, owns⟩

/-- One edge of the tree, downward and upward: a child lies below its parent, has it as `par`, and the bit that R191
reads off the edge is the one that selects the child. -/
theorem TreeOk.child_inner {p : NodeIdx} (inner : IsInner b p) {bit : Bool} (inTree : child b p bit ≠ nilIdx) :
    (child b p bit).toNat < p.toNat ∧ (readNode b (child b p bit)).par = p ∧
      ((readNode b p).c1 == child b p bit) = bit := by
  obtain ⟨_, _, c0Below, c0Par, c1Rule⟩ := tree.inner p inner.1 inner.2
  cases bit with
  | false =>
    refine ⟨c0Below, c0Par, beq_false_of_ne fun same => ?_⟩
    change (readNode b p).c1 = (readNode b p).c0 at same
    split at c1Rule
    · exact inTree (same.symm.trans c1Rule)
    · exact c1Rule.2.2 same.symm
  | true =>
    split at c1Rule
    · exact absurd c1Rule inTree
    · exact ⟨c1Rule.1, c1Rule.2.1, beq_self_eq_true _⟩

/-- Only a tree of one leaf has an edge to NIL, the "1" edge of its root (R193 (c)). -/
theorem TreeOk.nleaf_of_child_nil {p : NodeIdx} (inner : IsInner b p) {bit : Bool} (noChild : child b p bit = nilIdx) :
    b.nleaf.toNat = 1 := by
  obtain ⟨_, _, c0Below, _, c1Rule⟩ := tree.inner p inner.1 inner.2
  by_contra several
  rw [if_neg several] at c1Rule
  have below : (child b p bit).toNat < p.toNat := by cases bit <;> [exact c0Below; exact c1Rule.1]
  exact tree.ne_nil (below.trans inner.2) noChild

/-- A node other than the root is the child that some bit selects of an INTERNAL node above it. -/
theorem TreeOk.parent_inner {i : NodeIdx} (node : i.toNat < b.nnode.toNat) (notRoot : i ≠ b.root) :
    ∃ p bit, IsInner b p ∧ i.toNat < p.toNat ∧ child b p bit = i := by
  have parent := tree.parents i node
  rw [if_neg notRoot] at parent
  obtain ⟨below, inArena, isChild⟩ := parent
  generalize (readNode b i).par = p at *
  obtain ⟨bit, edge⟩ : ∃ bit, child b p bit = i := by
    obtain ⟨c0, _⟩ | ⟨_, c1⟩ := isChild
    · exact ⟨false, c0⟩
    · exact ⟨true, c1⟩
  refine ⟨p, bit, ⟨?_, inArena⟩, below, edge⟩
  by_contra leaf
  obtain ⟨_, c0, c1, _⟩ := tree.leaves p (by omega)
  have noChild : child b p bit = nilIdx := by cases bit <;> [exact c0; exact c1]
  exact tree.ne_nil node (edge.symm.trans noChild)

/-- Every node lies on a path from the root (R172 (c)). -/
theorem TreeOk.exists_reaches {i : NodeIdx} (node : i.toNat < b.nnode.toNat) : ∃ w, Reaches b w i := by
  by_cases isRoot : i = b.root
  · exact ⟨[], isRoot ▸ .root⟩
  · obtain ⟨p, bit, inner, below, rfl⟩ := tree.parent_inner node isRoot
    obtain ⟨w, path⟩ := TreeOk.exists_reaches inner.2
    exact ⟨w ++ [bit], .step path inner bit (tree.ne_nil node)⟩
termination_by b.nnode.toNat - i.toNat

end

/-! ### Lengths and codes of the paths -/

section

variable {b : Block} (tree : TreeOk b) (hasRoot : b.root ≠ nilIdx)
include tree hasRoot

/-- Every step of a path goes down by one index at least. -/
theorem Reaches.length_add_lt {w : List Bool} {n : NodeIdx} (path : Reaches b w n) :
    w.length + n.toNat < b.nnode.toNat := by
  induction path with
  | root => simp [← tree.root_toNat hasRoot]
  | step _ inner bit inTree ih =>
    have down := (tree.child_inner inner inTree).1
    rw [List.length_append, List.length_singleton]
    omega

/-- A path to an INTERNAL node leaves room for one more bit within 255. -/
theorem Reaches.length_lt_of_inner {w : List Bool} {n : NodeIdx} (path : Reaches b w n) (inner : IsInner b n) :
    w.length < 255 ∧ (b.nleaf.toNat = 1 → w = []) := by
  have room := path.length_add_lt tree hasRoot
  have few := tree.nleaf_le
  have above := inner.1
  rw [tree.nnode_eq hasRoot] at room
  refine ⟨by split at room <;> omega, fun one => ?_⟩
  rw [if_pos one] at room
  exact List.length_eq_zero_iff.1 (by omega)

/-- R176: no path is longer than MAXDEPTH. -/
theorem Reaches.length_le {w : List Bool} {n : NodeIdx} (path : Reaches b w n) : w.length ≤ 255 := by
  cases path with
  | root => exact Nat.zero_le _
  | step before inner bit _ =>
    have := (before.length_lt_of_inner tree hasRoot inner).1
    rw [List.length_append, List.length_singleton]
    omega

theorem TreeOk.par_root : (readNode b b.root).par = nilIdx := by
  have parent := tree.parents b.root (tree.isInner_root hasRoot).2
  rwa [if_pos rfl] at parent

/-- The upward walk of R191 reads a path backward. -/
theorem Reaches.codeUp_eq {w : List Bool} {n : NodeIdx} (path : Reaches b w n) {k : Nat} (room : w.length ≤ k) :
    codeUp b k n = w.reverse := by
  induction path generalizing k with
  | root =>
    cases k with
    | zero => rfl
    | succ k => simp [codeUp, tree.par_root hasRoot]
  | step _ inner bit inTree ih =>
    rw [List.length_append, List.length_singleton] at room
    obtain ⟨k, rfl⟩ : ∃ j, k = j + 1 := ⟨k - 1, by omega⟩
    obtain ⟨_, par, edge⟩ := tree.child_inner inner inTree
    simp only [codeUp, par, if_neg (tree.ne_nil inner.2), edge, ih (Nat.le_of_succ_le_succ room),
      List.reverse_append, List.reverse_singleton, List.singleton_append]

end

/-! ### Codes -/

section

variable {b : Block} (tree : TreeOk b) {a : Sym}
include tree

/-- Code(a) is the one path to the leaf of `a`. -/
theorem Reaches.eq_code {w : List Bool} (path : Reaches b w (readLeaf b a)) (has : readLeaf b a ≠ nilIdx) :
    w = code b a := by
  have hasRoot := tree.root_ne_nil has
  rw [code, path.codeUp_eq tree hasRoot (path.length_le tree hasRoot), List.reverse_reverse]

theorem reaches_code (has : readLeaf b a ≠ nilIdx) : Reaches b (code b a) (readLeaf b a) := by
  have hasRoot := tree.root_ne_nil has
  have node := (tree.leaf_of_symbol has).1.trans (tree.nleaf_lt_nnode hasRoot)
  obtain ⟨w, path⟩ := tree.exists_reaches node
  exact path.eq_code tree has ▸ path

/-- A path that begins with Code(a) ends with it, because a leaf has no children (R191). -/
theorem Reaches.of_code_prefix {w : List Bool} {n : NodeIdx} (path : Reaches b w n) (has : readLeaf b a ≠ nilIdx)
    (begins : code b a <+: w) : w = code b a ∧ n = readLeaf b a := by
  obtain ⟨v, rfl⟩ := begins
  obtain ⟨m, start, whole | inner⟩ := path.beginning
  · rw [whole, List.append_nil] at path ⊢
    exact ⟨rfl, path.followBits.symm.trans (reaches_code tree has).followBits⟩
  · obtain rfl : m = readLeaf b a := start.followBits.symm.trans (reaches_code tree has).followBits
    exact absurd inner.1 (Nat.not_le_of_lt (tree.leaf_of_symbol has).1)

theorem Reaches.not_code_prefix {w : List Bool} {n : NodeIdx} (path : Reaches b w n) (inner : IsInner b n)
    (has : readLeaf b a ≠ nilIdx) : ¬ code b a <+: w := by
  intro begins
  obtain ⟨_, rfl⟩ := path.of_code_prefix tree has begins
  exact absurd inner.1 (Nat.not_le_of_lt (tree.leaf_of_symbol has).1)

/-- The root is no leaf, so every code has a bit (R172 (i)). -/
theorem code_ne_nil (has : readLeaf b a ≠ nilIdx) : code b a ≠ [] := fun empty =>
  Reaches.root.not_code_prefix tree (tree.isInner_root (tree.root_ne_nil has)) has (empty ▸ List.prefix_rfl)

/-- Equal bits begin with the code of one symbol at most (R191). -/
theorem symbol_eq_of_code_append {x : Sym} (has : readLeaf b a ≠ nilIdx) (hasX : readLeaf b x ≠ nilIdx)
    {u v : List Bool} (same : code b a ++ u = code b x ++ v) : a = x := by
  have leaves : readLeaf b a = readLeaf b x := by
    obtain begins | begins := List.prefix_or_prefix_of_prefix (List.prefix_append _ u) (same ▸ List.prefix_append _ v)
    · exact ((reaches_code tree hasX).of_code_prefix tree has begins).2.symm
    · exact ((reaches_code tree has).of_code_prefix tree hasX begins).2
  rw [← (tree.leaf_of_symbol has).2, leaves, (tree.leaf_of_symbol hasX).2]

end

/-- Settles O31: Code(a) is the path to the leaf of `a`, and following a path ends where it leads. -/
theorem codeIsThePathFromTheRoot : Obligations.CodeIsThePathFromTheRoot := fun _ _ tree has =>
  (reaches_code tree has).followBits

end Sys2Proof.Machine
end

section
/-! The reader as the bits it will deliver, and DECODE by them (R68, R130, R193). -/

namespace Sys2Proof.Machine

/-! ### The bits of the streams (R68) -/

@[simp] theorem length_byteBits (b : Byte) : (byteBits b).length = 8 := by simp [byteBits]

/-- Bit `i` of a byte in stream order is its bit 7 − i (R68). -/
@[simp] theorem getElem_byteBits (b : Byte) {i : Nat} (inByte : i < (byteBits b).length) :
    (byteBits b)[i] = b.getLsbD (7 - i) := by simp [byteBits]

theorem drop_byteBits (b : Byte) {i : Nat} (inByte : i < 8) :
    (byteBits b).drop i = b.getLsbD (7 - i) :: (byteBits b).drop (i + 1) := by
  rw [List.drop_eq_getElem_cons (by simpa using inByte), getElem_byteBits]

/-! ### The reader -/

/-- The reader's registers and the source position set (R27, R28, R41). -/
def State.withReader (rbuf : BitVec 8) (rcnt : BitVec 4) (spos : Nat) (s : State) : State :=
  { s with blk.rbuf := rbuf, blk.rcnt := rcnt, env.spos := spos }

/-- With a legal RCNT (R28), `RdBit()` takes the first of the bits to read, or finds that there is none (R130). -/
theorem rdBit_bitsToRead {s : State} (legal : s.blk.rcnt.toNat ≤ 8) :
    (bitsToRead s = [] ∧ rdBit s = (none, s)) ∨
    (∃ bit rbuf rcnt spos, rdBit s = (some bit, s.withReader rbuf rcnt spos) ∧ rcnt.toNat ≤ 8 ∧
      bitsToRead s = bit :: bitsToRead (s.withReader rbuf rcnt spos)) := by
  obtain ⟨buffered, read⟩ | ⟨left, empty, read⟩ | ⟨empty, noByte, read⟩ := rdBit_cases s
  · have less : (s.blk.rcnt - 1#4).toNat = s.blk.rcnt.toNat - 1 := by bv_omega
    have positive : s.blk.rcnt.toNat ≠ 0 := fun zero => buffered (BitVec.eq_of_toNat_eq zero)
    have first := drop_byteBits s.blk.rbuf (show 8 - s.blk.rcnt.toNat < 8 by omega)
    rw [show 7 - (8 - s.blk.rcnt.toNat) = s.blk.rcnt.toNat - 1 by omega,
      show 8 - s.blk.rcnt.toNat + 1 = 8 - (s.blk.rcnt.toNat - 1) by omega] at first
    refine .inr ⟨_, _, _, _, read, by omega, ?_⟩
    simp only [bitsToRead, first, State.withReader, less, List.cons_append]
  · have first := drop_byteBits s.env.src[s.env.spos] (show 0 < 8 by decide)
    rw [List.drop_zero] at first
    refine .inr ⟨_, _, _, _, read, by decide, ?_⟩
    rw [bitsToRead, empty, List.drop_eq_nil_of_le (by simp), List.drop_eq_getElem_cons left, streamBits,
      List.flatMap_cons, first]
    rfl
  · exact .inl ⟨by simp [bitsToRead, empty, List.drop_eq_nil_of_le noByte, streamBits], read⟩

/-- `t` differs from `s` in RBUF, RCNT, SPOS, CUR and DLEN at most. -/
def ReaderMoved (s t : State) : Prop :=
  ∃ rbuf rcnt spos cur dlen, t = setCursor cur dlen (s.withReader rbuf rcnt spos)

theorem ReaderMoved.trans {s t u : State} (first : ReaderMoved s t) (next : ReaderMoved t u) : ReaderMoved s u := by
  obtain ⟨_, _, _, _, _, rfl⟩ := first
  obtain ⟨_, _, _, _, _, rfl⟩ := next
  exact ⟨_, _, _, _, _, rfl⟩

/-- No code begins with a bit that selects NIL at the root. -/
theorem TreeOk.not_code_prefix_of_noChild {b : Block} (tree : TreeOk b) {bit : Bool}
    (noChild : child b b.root bit = nilIdx) {a : Sym} (has : readLeaf b a ≠ nilIdx) (rest : List Bool) :
    ¬ code b a <+: bit :: rest := by
  intro begins
  have path := reaches_code tree has
  obtain ⟨u, split⟩ : ∃ u, code b a = [bit] ++ u := by
    obtain empty | ⟨u, split, _⟩ := List.prefix_cons_iff.1 begins
    · exact absurd empty (code_ne_nil tree has)
    · exact ⟨u, split⟩
  rw [split] at path
  obtain ⟨_, start, _⟩ := path.beginning
  obtain ⟨p, before, _, rfl, inTree⟩ := Reaches.last (w := []) start
  obtain rfl : b.root = p := before.followBits
  exact inTree noChild

/-! ### The descent -/

/-- How a DECODE ends whose reader would deliver `bits`, in the tree of block `b`: the cases of R193 in terms of Code.
The state before it is `s`. -/
inductive DescentEnd (b : Block) (bits : List Bool) (s : State) : Host.Outcome State Fault Refusal → Prop
  /-- A leaf is reached: the bits begin with the code of its symbol. -/
  | symbol (a : Sym) (t : State) (has : readLeaf b a ≠ nilIdx) (split : bits = code b a ++ bitsToRead t)
      (moved : ReaderMoved s t) : DescentEnd b bits s (respond stOk (rdOfByte a) t)
  /-- There is no bit at all. -/
  | noBit (none : bits = []) : DescentEnd b bits s (respond stEod 0#64 s)
  /-- The bits run out in mid-path, or the first of them leads nowhere because there is one leaf. -/
  | malformed (t : State) (some : bits ≠ []) (noCode : ∀ a : Sym, readLeaf b a ≠ nilIdx → ¬ code b a <+: bits)
      (left : bitsToRead t = if b.nleaf = 1#9 then bits.tail else []) (moved : ReaderMoved s t) :
      DescentEnd b bits s (raise .malformedBitstream t)

/-- A descent with bits ends as what it becomes once it has moved the reader. -/
theorem DescentEnd.of_moved {b : Block} {bits : List Bool} {s t : State} {o : Host.Outcome State Fault Refusal}
    (ends : DescentEnd b bits t o) (moved : ReaderMoved s t) (some : bits ≠ []) : DescentEnd b bits s o := by
  cases ends with
  | symbol a u has split next => exact .symbol a u has split (moved.trans next)
  | noBit none => exact absurd none some
  | malformed u _ noCode left next => exact .malformed u some noCode left (moved.trans next)

/-- A descent that finds no bit to read (R193 (b)). -/
theorem descend_noBit {k : Nat} {s : State} (read : rdBit s = (none, s)) :
    descend (k + 1) s = if s.tmp.dlen = 0#8 then respond stEod 0#64 s else raise .malformedBitstream s := by
  simp only [descend, read]

/-- A descent that reads a bit, by the arena alone. -/
theorem descend_bit {b : Block} {k : Nat} {s : State} {bit : Bool} {rbuf : BitVec 8} {rcnt : BitVec 4} {spos : Nat}
    (arena : s.blk.node = b.node) (read : rdBit s = (some bit, s.withReader rbuf rcnt spos)) :
    descend (k + 1) s =
      if child b s.tmp.cur bit = nilIdx then raise .malformedBitstream (s.withReader rbuf rcnt spos)
      else if (readNode b (child b s.tmp.cur bit)).kind = .leaf then
        respond stOk (rdOfByte (readNode b (child b s.tmp.cur bit)).sym)
          (setCursor (child b s.tmp.cur bit) (s.tmp.dlen + 1#8) (s.withReader rbuf rcnt spos))
      else descend k (setCursor (child b s.tmp.cur bit) (s.tmp.dlen + 1#8) (s.withReader rbuf rcnt spos)) := by
  have sameNode : readNode (s.withReader rbuf rcnt spos).blk = readNode b :=
    funext fun i => congrArg (fun arena => arena[i.toNat]?.getD Node.zero) arena
  have sameChild : child (s.withReader rbuf rcnt spos).blk s.tmp.cur bit = child b s.tmp.cur bit := by
    rw [child, sameNode, ← child]
  have sameTmp : (s.withReader rbuf rcnt spos).tmp = s.tmp := rfl
  simp only [descend, read, sameTmp, sameChild, setCursor_blk, sameNode]

/-- The descent of DECODE from any node of its way, `w` being the bits it has read (R193). -/
theorem descend_ends {b : Block} (tree : TreeOk b) (hasRoot : b.root ≠ nilIdx) (k : Nat) {s : State} {w : List Bool}
    (arena : s.blk.node = b.node) (legal : s.blk.rcnt.toNat ≤ 8) (path : Reaches b w s.tmp.cur)
    (inner : IsInner b s.tmp.cur) (depth : s.tmp.dlen.toNat = w.length) (room : w.length + k = 255) :
    DescentEnd b (w ++ bitsToRead s) s (descend k s) := by
  induction k generalizing s w with
  | zero => exact absurd (path.length_lt_of_inner tree hasRoot inner).1 (by omega)
  | succ k ih =>
    obtain ⟨short, oneLeaf⟩ := path.length_lt_of_inner tree hasRoot inner
    obtain ⟨none, read⟩ | ⟨bit, rbuf, rcnt, spos, read, legal', some⟩ := rdBit_bitsToRead legal
    · rw [descend_noBit read, none, List.append_nil]
      split
      next first =>
        exact .noBit (List.length_eq_zero_iff.1 (by rw [← depth, first]; rfl))
      next later =>
        have notEmpty : w ≠ [] := by
          rintro rfl
          exact later (BitVec.eq_of_toNat_eq depth)
        refine .malformed s notEmpty (fun a has => path.not_code_prefix tree inner has) ?_ ⟨_, _, _, _, _, rfl⟩
        rw [none, if_neg fun one => notEmpty (oneLeaf (by rw [one]; rfl))]
    · rw [descend_bit arena read, some, List.append_cons]
      have notEmpty : w ++ [bit] ++ bitsToRead (s.withReader rbuf rcnt spos) ≠ [] := by simp
      split
      next noChild =>
        have one := tree.nleaf_of_child_nil inner noChild
        obtain rfl := oneLeaf one
        rw [← path.followBits] at noChild
        refine .malformed _ notEmpty (fun a has => tree.not_code_prefix_of_noChild noChild has _) ?_
          ⟨_, _, _, _, _, rfl⟩
        rw [if_pos (BitVec.eq_of_toNat_eq one)]
        rfl
      next inTree =>
        have path' := path.step inner bit inTree
        have inArena := (tree.child_inner inner inTree).1.trans inner.2
        split
        next leaf =>
          have owns := (tree.readLeaf_sym inArena leaf).2
          have has := owns.symm ▸ inTree
          rw [← owns] at path'
          refine .symbol _ _ has ?_ ⟨_, _, _, _, _, rfl⟩
          rw [path'.eq_code tree has]
          rfl
        next notLeaf =>
          have below : b.nleaf.toNat ≤ (child b s.tmp.cur bit).toNat := by
            by_contra leaf
            exact notLeaf (tree.leaves _ (by omega)).1
          have depth' : (s.tmp.dlen + 1#8).toNat = (w ++ [bit]).length := by
            rw [List.length_append, List.length_singleton]
            bv_omega
          have room' : (w ++ [bit]).length + k = 255 := by
            rw [List.length_append, List.length_singleton]
            omega
          exact (ih (s := setCursor _ _ (s.withReader rbuf rcnt spos)) arena legal' path' ⟨below, inArena⟩ depth'
            room').of_moved ⟨_, _, _, _, _, rfl⟩ notEmpty

/-- DECODE of a live block with a tree is the descent from the root (R193). -/
theorem exec_decode_live {s : State} (isLive : live s) (built : s.blk.tvalid = true) (hasRoot : s.blk.root ≠ nilIdx) :
    exec .decode s = descend maxDepth (setCursor s.blk.root 0#8 s) := by
  change execDecode s = _
  rw [execDecode, whenLive_live isLive, if_neg (by simp [built, hasRoot])]

theorem exec_decode_ends {s : State} (isLive : live s) (built : s.blk.tvalid = true) (tree : TreeOk s.blk)
    (hasRoot : s.blk.root ≠ nilIdx) (legal : s.blk.rcnt.toNat ≤ 8) :
    DescentEnd s.blk (bitsToRead s) (setCursor s.blk.root 0#8 s) (exec .decode s) := by
  rw [exec_decode_live isLive built hasRoot]
  exact descend_ends tree hasRoot maxDepth (s := setCursor s.blk.root 0#8 s) rfl legal .root
    (tree.isInner_root hasRoot) rfl rfl

/-- Settles O37: each clause is one way the descent can end, and its bits shut out the other ways. -/
theorem decodeReadsOneCode : Obligations.DecodeReadsOneCode := by
  refine ⟨decode_encode .decode rfl, fun s isLive built tree hasRoot legal => ?_⟩
  have ends := exec_decode_ends isLive built tree hasRoot legal
  generalize exec .decode s = o at ends
  cases ends with
  | symbol a t has split moved =>
    obtain ⟨rbuf, rcnt, spos, cur, dlen, rfl⟩ := moved
    refine ⟨stOk, rdOfByte a, rbuf, rcnt, s.blk.fault, s.blk.cause, spos, cur, dlen, rfl, fun none => ?_,
      fun x rest hasX begins => ?_, fun _ noCode => ?_⟩
    · rw [split] at none
      exact absurd (List.append_eq_nil_iff.1 none).1 (code_ne_nil tree has)
    · rw [split] at begins
      obtain rfl := symbol_eq_of_code_append tree has hasX begins
      exact ⟨rfl, rdOfByte_eq_ofNat a, List.append_cancel_left begins, isLive, rfl⟩
    · exact absurd (split ▸ List.prefix_append _ _) (noCode a has)
  | noBit none =>
    refine ⟨stEod, 0#64, s.blk.rbuf, s.blk.rcnt, s.blk.fault, s.blk.cause, s.env.spos, s.blk.root, 0#8, rfl,
      fun _ => ⟨rfl, rfl, rfl, rfl, rfl, isLive, rfl⟩, fun x rest hasX begins => ?_, fun some => absurd none some⟩
    rw [none] at begins
    exact absurd (List.append_eq_nil_iff.1 begins.symm).1 (code_ne_nil tree hasX)
  | malformed t some noCode left moved =>
    obtain ⟨rbuf, rcnt, spos, cur, dlen, rfl⟩ := moved
    refine ⟨Cause.malformedBitstream.code, 0#64, rbuf, rcnt, true, Cause.malformedBitstream.code, spos, cur, dlen, rfl,
      fun none => absurd none some, fun x rest hasX begins => ?_, fun _ _ => ⟨rfl, rfl, rfl, rfl, left⟩⟩
    exact absurd (begins ▸ List.prefix_append _ _) (noCode x hasX)

end Sys2Proof.Machine
end

section
/-! The writer by the bits written, and ENCODE as `WrBit` of each bit of Code (R68, R140, R190). -/

namespace Sys2Proof.Machine

/-! ### The writer -/

/-- `WrBit` of each bit in order (R190, R192). -/
def wrBits (bits : List Bool) (s : State) : State := bits.foldl (fun u b => wrBit b u) s

@[simp] theorem wrBits_nil (s : State) : wrBits [] s = s := rfl
@[simp] theorem wrBits_cons (b : Bool) (bits : List Bool) (s : State) :
    wrBits (b :: bits) s = wrBits bits (wrBit b s) := rfl

/-- The transient registers set (R20 (b)). -/
def State.withTmp (x : Transient) (s : State) : State := { s with tmp := x }

/-- `WrBit` neither reads nor changes a transient register. -/
theorem wrBit_withTmp (b : Bool) (x : Transient) (s : State) : wrBit b (s.withTmp x) = (wrBit b s).withTmp x := by
  by_cases eighth : s.blk.wcnt = 7#3
  · rw [wrBit_emits b eighth, wrBit_emits b (s := s.withTmp x) eighth]
    rfl
  · rw [wrBit_pending b eighth, wrBit_pending b (s := s.withTmp x) eighth]
    rfl

theorem wrBits_withTmp (bits : List Bool) (x : Transient) (s : State) :
    wrBits bits (s.withTmp x) = (wrBits bits s).withTmp x := by
  induction bits generalizing s with
  | nil => rfl
  | cons b bits ih =>
    rw [wrBits_cons, wrBit_withTmp, ih, wrBits_cons]

/-- `WrBit` of many bits changes WBUF, WCNT and SNK only. -/
theorem wrBits_frame (bits : List Bool) (s : State) :
    ∃ w n snk, wrBits bits s = { s with blk.wbuf := w, blk.wcnt := n, env.snk := snk } := by
  induction bits generalizing s with
  | nil => exact ⟨_, _, _, rfl⟩
  | cons b bits ih =>
    obtain ⟨w, n, snk, first⟩ := wrBit_frame b s
    obtain ⟨w', n', snk', rest⟩ := ih (wrBit b s)
    exact ⟨w', n', snk', by rw [wrBits_cons, rest, first]⟩

/-- The bit that `WrBit` sets comes next in stream order (R68, R140). -/
theorem take_byteBits_setBit (v : BitVec 8) (b : Bool) {n : Nat} (inByte : n < 8) :
    (byteBits (setBit v (7 - n) b)).take (n + 1) = (byteBits v).take n ++ [b] := by
  have before : (byteBits (setBit v (7 - n) b)).take n = (byteBits v).take n := by
    refine List.ext_getElem (by simp) fun i inFirst _ => ?_
    have less : i < n := (List.length_take_le n _).trans_lt' inFirst
    rw [List.getElem_take, List.getElem_take, getElem_byteBits, getElem_byteBits, getLsbD_setBit _ _ _ _ (by omega),
      if_neg (by omega)]
  rw [List.take_succ_eq_append_getElem (by simpa using inByte), before, getElem_byteBits,
    getLsbD_setBit _ _ _ _ (by omega), if_pos rfl]

/-- `WrBit(b)` appends `b` to the bits written. -/
theorem bitsWritten_wrBit (b : Bool) (s : State) : bitsWritten (wrBit b s) = bitsWritten s ++ [b] := by
  have appended := take_byteBits_setBit s.blk.wbuf b s.blk.wcnt.isLt
  by_cases eighth : s.blk.wcnt = 7#3
  · rw [wrBit_emits b eighth]
    have whole : byteBits (setBit s.blk.wbuf 0 b) = pendingBits s.blk ++ [b] := by
      rw [eighth] at appended
      rw [pendingBits, eighth, ← appended]
      exact (List.take_of_length_le (length_byteBits _).le).symm
    simp [bitsWritten, streamBits, whole, pendingBits]
  · have more : (s.blk.wcnt + 1#3).toNat = s.blk.wcnt.toNat + 1 := by bv_omega
    rw [wrBit_pending b eighth]
    simp only [bitsWritten, pendingBits, setWriter_env, setWriter_wbuf, setWriter_wcnt, more, appended,
      List.append_assoc]

theorem bitsWritten_wrBits (bits : List Bool) (s : State) : bitsWritten (wrBits bits s) = bitsWritten s ++ bits := by
  induction bits generalizing s with
  | nil => exact (List.append_nil _).symm
  | cons b bits ih => rw [wrBits_cons, ih, bitsWritten_wrBit, List.append_assoc, List.singleton_append]

/-! ### The stack of ENCODE -/

/-- The lowest entries of the stack are these bits, the last of the list at the bottom (R39). -/
def Stacked (stk : Vector Bool 255) : List Bool → Prop
  | [] => True
  | b :: w => stk[w.length]? = some b ∧ Stacked stk w

/-- An entry above them does not count. -/
theorem Stacked.setIfInBounds {stk : Vector Bool 255} {w : List Bool} (stacked : Stacked stk w) {i : Nat}
    (above : w.length ≤ i) (b : Bool) : Stacked (stk.setIfInBounds i b) w := by
  induction w with
  | nil => trivial
  | cons c w ih =>
    rw [List.length_cons] at above
    refine ⟨?_, ih stacked.2 (by omega)⟩
    rw [Vector.getElem?_setIfInBounds_ne (by omega)]
    exact stacked.1

/-- Pushing bits, last first, on the empty stack. -/
theorem stacked_pushed {w : List Bool} (room : w.length ≤ 255) {s : State} (empty : s.tmp.clen = 0#8) :
    Stacked (w.foldr pushCstk s).tmp.cstk w ∧ (w.foldr pushCstk s).tmp.clen.toNat = w.length := by
  induction w with
  | nil => exact ⟨trivial, congrArg BitVec.toNat empty⟩
  | cons b w ih =>
    rw [List.length_cons] at room
    obtain ⟨stacked, len⟩ := ih (by omega)
    simp only [List.foldr_cons, pushCstk_cstk, pushCstk_clen, len]
    refine ⟨⟨?_, stacked.setIfInBounds le_rfl b⟩, ?_⟩
    · rw [Vector.getElem?_setIfInBounds_self_of_lt (by omega)]
    · rw [List.length_cons]
      bv_omega

/-- Pushing changes CSTK and CLEN only. -/
theorem pushed_frame (w : List Bool) (s : State) :
    ∃ stk len, w.foldr pushCstk s = s.withTmp { s.tmp with cstk := stk, clen := len } := by
  induction w with
  | nil => exact ⟨_, _, rfl⟩
  | cons b w ih =>
    obtain ⟨stk, len, pushed⟩ := ih
    rw [List.foldr_cons, pushed]
    exact ⟨_, _, rfl⟩

/-- The upward walk of ENCODE pushes the bits of a path, last first (R190). -/
theorem Reaches.pushCode_eq {b : Block} (tree : TreeOk b) (hasRoot : b.root ≠ nilIdx) {w : List Bool} {n : NodeIdx}
    (path : Reaches b w n) {k : Nat} (room : w.length ≤ k) {s : State} (arena : s.blk = b) :
    pushCode k n s = some (w.foldr pushCstk s) := by
  induction path generalizing k s with
  | root => cases k <;> simp [pushCode, arena, tree.par_root hasRoot]
  | step _ inner bit inTree ih =>
    rw [List.length_append, List.length_singleton] at room
    obtain ⟨k, rfl⟩ : ∃ j, k = j + 1 := ⟨k - 1, by omega⟩
    obtain ⟨_, par, edge⟩ := tree.child_inner inner inTree
    simp only [pushCode, arena, par, if_neg (tree.ne_nil inner.2), edge, List.foldr_append, List.foldr_cons,
      List.foldr_nil]
    exact ih (Nat.le_of_succ_le_succ room) arena

/-- The emission of ENCODE writes the stacked bits, top first, and leaves CLEN = 0 (R190). -/
theorem emitCode_eq {w : List Bool} {s : State} (stacked : Stacked s.tmp.cstk w) (len : s.tmp.clen.toNat = w.length) :
    emitCode w.length s = (wrBits w s).withTmp { s.tmp with clen := 0#8 } := by
  induction w generalizing s with
  | nil =>
    have empty : s.tmp.clen = 0#8 := BitVec.eq_of_toNat_eq len
    rw [← empty]
    rfl
  | cons b w ih =>
    obtain ⟨top, below⟩ := stacked
    rw [List.length_cons] at len
    have less : (s.tmp.clen - 1#8).toNat = w.length := by bv_omega
    have read : readCstk (setClen (s.tmp.clen - 1#8) s) (s.tmp.clen - 1#8) = b := by
      simp [readCstk, less, top]
    rw [List.length_cons, emitCode]
    simp only [setClen_clen, read]
    have emitted : wrBit b (setClen (s.tmp.clen - 1#8) s) =
        (wrBit b s).withTmp { s.tmp with clen := s.tmp.clen - 1#8 } := wrBit_withTmp b _ s
    rw [emitted, ih (s := (wrBit b s).withTmp { s.tmp with clen := s.tmp.clen - 1#8 }) below less, wrBits_withTmp,
      wrBits_cons]
    rfl

/-! ### ENCODE -/

/-- ENCODE of a live block with a leaf for the symbol pushes its code and emits it (R190). -/
theorem exec_encode_live {a : Sym} {s : State} (isLive : live s) (built : s.blk.tvalid = true) (tree : TreeOk s.blk)
    (has : readLeaf s.blk a ≠ nilIdx) :
    ∃ stk, exec (.encode a) s = .next (pushRsp stOk (BitVec.ofNat 64 (code s.blk a).length)
      ((wrBits (code s.blk a) s).withTmp { s.tmp with cstk := stk, clen := 0#8 })) := by
  have hasRoot := tree.root_ne_nil has
  have path := reaches_code tree has
  have room := path.length_le tree hasRoot
  change ∃ stk, execEncode a s = _
  rw [execEncode, whenLive_live isLive, if_neg (by simp [built, hasRoot]), if_neg has,
    path.pushCode_eq tree hasRoot (k := maxDepth) room (s := setClen 0#8 s) rfl]
  obtain ⟨stacked, len⟩ := stacked_pushed (s := setClen 0#8 s) room rfl
  obtain ⟨stk, n, pushed⟩ : ∃ stk n, (code s.blk a).foldr pushCstk (setClen 0#8 s) =
    s.withTmp { s.tmp with cstk := stk, clen := n } := pushed_frame _ _
  generalize (code s.blk a).foldr pushCstk (setClen 0#8 s) = u at *
  refine ⟨stk, ?_⟩
  dsimp only
  rw [respond_eq, rdOfByte_eq_ofNat, len, emitCode_eq stacked len, pushed, wrBits_withTmp]
  rfl

/-- Settles O34: ENCODE is `WrBit` of each bit of Code(a), and each of these appends its bit. -/
theorem encodeEmitsTheCode : Obligations.EncodeEmitsTheCode := by
  refine ⟨fun a => decode_encode (.encode a) rfl, fun a s isLive built tree has => ?_⟩
  obtain ⟨stk, e⟩ := exec_encode_live isLive built tree has
  obtain ⟨w, n, snk, written⟩ := wrBits_frame (code s.blk a) s
  have bits := bitsWritten_wrBits (code s.blk a) s
  change ∃ wbuf wcnt snk cstk, _ ∧ wbuf = (wrBits (code s.blk a) s).blk.wbuf ∧
    wcnt = (wrBits (code s.blk a) s).blk.wcnt ∧ snk = (wrBits (code s.blk a) s).env.snk ∧ _
  rw [written] at e bits ⊢
  exact ⟨w, n, snk, stk, e, rfl, rfl, rfl, bits⟩

end Sys2Proof.Machine
end

section
/-! The whole of R172 for the tree that BUILD leaves: beside the forest of the merge loop, what becomes of the leaves, of
the counts, and of the link from a child to its parent. -/

namespace Sys2Proof.Machine

/-! ### The table and the arena of two blocks -/

/-- `b'` has the counts, the nodes and the leaf index of `b`. -/
structure SameArena (b b' : Block) : Prop where
  freq : b'.freq = b.freq
  node : b'.node = b.node
  nnode : b'.nnode = b.nnode
  nleaf : b'.nleaf = b.nleaf
  leaf : b'.leaf = b.leaf

theorem SameArena.trans {b b' b'' : Block} (h : SameArena b b') (h' : SameArena b' b'') : SameArena b b'' :=
  ⟨h'.freq.trans h.freq, h'.node.trans h.node, h'.nnode.trans h.nnode, h'.nleaf.trans h.nleaf, h'.leaf.trans h.leaf⟩

section

variable {b b' : Block} (same : SameArena b b')
include same

theorem SameArena.readFreq (a : Sym) : readFreq b' a = readFreq b a := by simp only [Machine.readFreq, same.freq]
theorem SameArena.readLeaf (a : Sym) : readLeaf b' a = readLeaf b a := by simp only [Machine.readLeaf, same.leaf]
theorem SameArena.readNode (i : NodeIdx) : readNode b' i = readNode b i := by simp only [Machine.readNode, same.node]

/-- The walk of R191 reads the arena only. -/
theorem SameArena.codeUp (k : ℕ) (i : NodeIdx) : codeUp b' k i = codeUp b k i := by
  induction k generalizing i with
  | zero => rfl
  | succ k ih => simp only [Machine.codeUp, same.readNode, ih]

theorem SameArena.code (a : Sym) : code b' a = code b a := by simp only [Machine.code, same.codeUp, same.readLeaf]

/-- R172 speaks of the table, the arena and ROOT only. -/
theorem SameArena.treeOk (root : b'.root = b.root) (tree : TreeOk b) : TreeOk b' := by
  constructor <;> simp only [isChildOf, same.freq, same.nnode, same.nleaf, same.readFreq, same.readLeaf, same.readNode,
    root]
  case leafCount => exact tree.leafCount
  case nodeCount => exact tree.nodeCount
  case rootIs => exact tree.rootIs
  case leaves => exact tree.leaves
  case leafIndex => exact tree.leafIndex
  case inner => exact tree.inner
  case sums => exact tree.sums
  case owners => exact tree.owners
  case rootInternal => exact tree.rootInternal
  case parents => exact tree.parents

end

/-! ### The leaves -/

theorem SameButPar.trans {n m k : Node} (h : SameButPar n m) (h' : SameButPar m k) : SameButPar n k :=
  ⟨h.kind.trans h'.kind, h.sym.trans h'.sym, h.count.trans h'.count, h.c0.trans h'.c0, h.c1.trans h'.c1⟩

/-- NODE[0 .. NLEAF−1] are the leaves of the symbols with a positive count, which LEAF finds, and no other symbol has one
(R165, R172 (a), (g)). Of a leaf's parent it says nothing. -/
structure LeafTable (b : Block) : Prop where
  count : b.nleaf.toNat = (b.freq.toList.filter (fun n => n ≠ 0#64)).length
  absent : ∀ a : Sym, readFreq b a = 0#64 → readLeaf b a = nilIdx
  below : ∀ a : Sym, readFreq b a ≠ 0#64 → (readLeaf b a).toNat < b.nleaf.toNat
  present : ∀ a : Sym, readFreq b a ≠ 0#64 →
    SameButPar (readNode b (readLeaf b a)) (leafNode a (readFreq b a))
  owned : ∀ i : NodeIdx, i.toNat < b.nleaf.toNat → ∃ a : Sym, readFreq b a ≠ 0#64 ∧ readLeaf b a = i

/-- The leaf phase makes it. -/
theorem LeavesBelow.leafTable {s t : State} (h : LeavesBelow s 256 t) (all : t.blk.nleaf = t.blk.nnode) :
    LeafTable t.blk := by
  constructor
  case count => rw [all, h.count, positives_256, h.same.freq]
  case absent => exact fun a zero => h.absent a a.isLt (by rwa [← h.same.readFreq])
  case below =>
    intro a positive
    rw [all]
    exact h.below a a.isLt (by rwa [← h.same.readFreq])
  case present =>
    intro a positive
    rw [h.same.readFreq] at positive ⊢
    rw [h.present a a.isLt positive]
    exact ⟨rfl, rfl, rfl, rfl, rfl⟩
  case owned =>
    intro i hi
    rw [all] at hi
    obtain ⟨a, _, positive, owns⟩ := h.owned i hi
    exact ⟨a, by rwa [h.same.readFreq], owns⟩

/-- Nothing that keeps FREQ, NLEAF, LEAF and the leaves up to their parents touches it. -/
theorem LeafTable.of_same {b b' : Block} (h : LeafTable b) (freq : b'.freq = b.freq) (nleaf : b'.nleaf = b.nleaf)
    (leaf : ∀ a, readLeaf b' a = readLeaf b a)
    (node : ∀ i : NodeIdx, i.toNat < b.nleaf.toNat → SameButPar (readNode b' i) (readNode b i)) : LeafTable b' := by
  have sameFreq : ∀ a, readFreq b' a = readFreq b a := fun a => by simp only [readFreq, freq]
  constructor <;> simp only [sameFreq, leaf, freq, nleaf]
  case count => exact h.count
  case absent => exact h.absent
  case below => exact h.below
  case present => exact fun a positive => (node _ (h.below a positive)).trans (h.present a positive)
  case owned => exact h.owned

/-- R172 (a). -/
theorem LeafTable.leaves {b : Block} (h : LeafTable b) (i : NodeIdx) (leaf : i.toNat < b.nleaf.toNat) :
    (readNode b i).kind = .leaf ∧ (readNode b i).c0 = nilIdx ∧ (readNode b i).c1 = nilIdx ∧
      (readNode b i).count = readFreq b (readNode b i).sym ∧ (readNode b i).count ≠ 0#64 ∧
      readLeaf b (readNode b i).sym = i := by
  obtain ⟨a, positive, rfl⟩ := h.owned i leaf
  obtain ⟨kind, sym, count, c0, c1⟩ := h.present a positive
  simp only [leafNode] at kind sym count c0 c1
  rw [sym, count]
  exact ⟨kind, c0, c1, rfl, positive, rfl⟩

/-- R172 (g). -/
theorem LeafTable.leafIndex {b : Block} (h : LeafTable b) (a : Sym) :
    if readFreq b a = 0#64 then readLeaf b a = nilIdx
    else (readLeaf b a).toNat < b.nleaf.toNat ∧ (readNode b (readLeaf b a)).sym = a := by
  split
  case isTrue zero => exact h.absent a zero
  case isFalse positive => exact ⟨h.below a positive, (h.present a positive).sym⟩

/-! ### The INTERNAL nodes -/

/-- An INTERNAL node has the symbol 0 and counts its two children, and a node with a parent is its child on one side
(R168, R172 (b), (d)). -/
structure JoinsLinked (b : Block) : Prop where
  sym : ∀ i : NodeIdx, IsInner b i → (readNode b i).sym = 0#8
  count : ∀ i : NodeIdx, IsInner b i → (readNode b i).count.toNat = pairCount b (readNode b i).c0 (readNode b i).c1
  linked : ∀ i : NodeIdx, i.toNat < b.nnode.toNat → (readNode b i).par = nilIdx ∨ isChildOf b i (readNode b i).par

/-- Without an INTERNAL node there is no parent. -/
theorem LeavesBelow.joinsLinked {s t : State} (h : LeavesBelow s 256 t) (all : t.blk.nleaf = t.blk.nnode) :
    JoinsLinked t.blk := by
  have noInner : ∀ i : NodeIdx, ¬ IsInner t.blk i := fun i inner => by
    have low := inner.1
    rw [all] at low
    exact absurd inner.2 (Nat.not_lt_of_le low)
  refine ⟨fun i inner => absurd inner (noInner i), fun i inner => absurd inner (noInner i), fun i hi => ?_⟩
  obtain ⟨a, _, positive, rfl⟩ := h.owned i hi
  rw [h.present a a.isLt positive]
  exact .inl rfl

section

variable {s : State} {a b : NodeIdx} (h : NextJoin s a b)
include h

/-- A join keeps the leaves up to their parents. -/
theorem NextJoin.leafTable_joined (leaves : LeafTable s.blk) : LeafTable (joined a b s).blk :=
  leaves.of_same (sameButTree_joined s a b).freq joined_nleaf (fun _ => by simp [joined])
    fun _ leaf => h.sameButPar_old (leaf.trans_le h.forest.leavesBelow)

/-- The node a join makes is the only new INTERNAL one. -/
theorem NextJoin.inner_cases {i : NodeIdx} (inner : IsInner (joined a b s).blk i) :
    i = s.blk.nnode ∨ IsInner s.blk i := by
  obtain ⟨low, high⟩ := inner
  rw [joined_nleaf] at low
  rw [joined_nnode h.nnode_ne_nil] at high
  exact (toNat_lt_succ_iff.1 high).imp_right fun old => ⟨low, old⟩

theorem NextJoin.pairCount_old {i j : NodeIdx} (oldI : i.toNat < s.blk.nnode.toNat)
    (oldJ : j.toNat < s.blk.nnode.toNat) : pairCount (joined a b s).blk i j = pairCount s.blk i j := by
  rw [pairCount, pairCount, (h.sameButPar_old oldI).count, (h.sameButPar_old oldJ).count]

/-- A child stays one, because its parent keeps its children. -/
theorem NextJoin.isChildOf_old {i p : NodeIdx} (old : p.toNat < s.blk.nnode.toNat) (child : isChildOf s.blk i p) :
    isChildOf (joined a b s).blk i p := by
  rwa [isChildOf, (h.sameButPar_old old).c0, (h.sameButPar_old old).c1]

theorem NextJoin.isChildOf_new {i : NodeIdx} (isOne : i = a ∨ i = b) :
    isChildOf (joined a b s).blk i s.blk.nnode := by
  rw [isChildOf, h.readNode_new]
  obtain rfl | rfl := isOne
  · exact .inl ⟨rfl, h.second_ne_first⟩
  · exact .inr ⟨h.second_ne_first.symm, rfl⟩

/-- A merge step without overflow links the two nodes it joins, and counts them. -/
theorem NextJoin.joinsLinked_joined (before : JoinsLinked s.blk) (fits : pairCount s.blk a b ≤ 2 ^ 64 - 1) :
    JoinsLinked (joined a b s).blk := by
  constructor
  case sym =>
    intro i inner
    obtain rfl | old := h.inner_cases inner
    · rw [h.readNode_new]
      rfl
    · rw [(h.sameButPar_old old.2).sym, before.sym i old]
  case count =>
    intro i inner
    obtain rfl | old := h.inner_cases inner
    · rw [h.readNode_new]
      change (BitVec.ofNat 64 (pairCount s.blk a b)).toNat = pairCount (joined a b s).blk a b
      rw [h.pairCount_old h.first_old.1 h.second_old.1, BitVec.toNat_ofNat, Nat.mod_eq_of_lt (by omega)]
    · have join := h.forest.joins i old.1 old.2
      have same := h.sameButPar_old old.2
      rw [same.count, same.c0, same.c1, h.pairCount_old (join.c0Below.trans old.2) (join.c1Below.trans old.2)]
      exact before.count i old
  case linked =>
    intro i hi
    rw [joined_nnode h.nnode_ne_nil] at hi
    by_cases isOne : i = a ∨ i = b
    · rw [h.par_joined isOne]
      exact .inr (h.isChildOf_new isOne)
    · obtain rfl | old := toNat_lt_succ_iff.1 hi
      · exact .inl h.par_new
      · rw [h.par_other old isOne]
        obtain none | ⟨_, inArena⟩ := h.forest.parents i old
        · exact .inl none
        · exact (before.linked i old).imp_right (h.isChildOf_old inArena)

end

/-- What every merge step without overflow keeps holds when the merge loop ends without one. -/
theorem mergeLoop_keeps {P : State → Prop}
    (keeps : ∀ s a b, NextJoin s a b → pairCount s.blk a b ≤ 2 ^ 64 - 1 → P s → P (joined a b s))
    (n : ℕ) {s t : State} (h : Forest s) (start : P s) (loop : mergeLoop n s = (none, t)) : P t := by
  induction n generalizing s with
  | zero =>
    obtain rfl : s = t := congrArg Prod.snd loop
    exact start
  | succ n ih =>
    rw [mergeLoop] at loop
    split at loop
    case isFalse =>
      obtain rfl : s = t := congrArg Prod.snd loop
      exact start
    case isTrue two =>
      obtain ⟨a, b, first, second, ⟨_, e⟩ | ⟨fits, e⟩⟩ := mergeStep_cases two
      · rw [e] at loop
        cases loop
      · rw [e] at loop
        have next : NextJoin s a b := ⟨h, two, first, second⟩
        exact ih (next.forest_joined fits) (keeps s a b next fits start) loop

/-! ### The tree after the root phase (R169, R172) -/

/-- R172 of a leaf at NODE[0] under a synthetic root at NODE[1]. -/
theorem LeafTable.treeOk_of_single {b : Block} (leaves : LeafTable b) (nleaf : b.nleaf = 1#9) (nnode : b.nnode = 2#9)
    (root : b.root = 1#9) (par0 : (readNode b 0#9).par = 1#9)
    (node1 : readNode b 1#9 =
      { kind := .internal, sym := 0#8, count := (readNode b 0#9).count, c0 := 0#9, c1 := nilIdx, par := nilIdx }) :
    TreeOk b := by
  have noRight : nilIdx ≠ 0#9 := by decide
  have nodes : ∀ i : NodeIdx, i.toNat < (2#9).toNat → i = 0#9 ∨ i = 1#9 := fun i _ => by bv_omega
  have inner : ∀ i : NodeIdx, (1#9).toNat ≤ i.toNat → i.toNat < (2#9).toNat → i = 1#9 := fun i _ _ => by bv_omega
  constructor
  case leafCount => exact leaves.count
  case leaves => exact leaves.leaves
  case leafIndex => exact leaves.leafIndex
  all_goals simp only [nleaf, nnode, root, isChildOf]
  case nodeCount => rfl
  case rootIs => rfl
  case inner =>
    intro i low high
    obtain rfl := inner i low high
    simp [node1, par0]
  case sums =>
    intro i low high
    obtain rfl := inner i low high
    simp [node1]
  case owners =>
    intro p i low high some isChild
    obtain rfl := inner p low high
    rw [node1] at isChild
    obtain rfl : i = 0#9 := (isChild.resolve_right some.symm).symm
    exact ⟨by decide, par0⟩
  case rootInternal =>
    intro _
    rw [node1]
  case parents =>
    intro i node
    obtain rfl | rfl := nodes i node
    · simp [par0, node1, noRight]
    · simp [node1]

/-- The nodes of a finished merge loop: the forest has one tree, whose root waits. -/
structure Merged (s : State) (r : NodeIdx) : Prop where
  forest : Forest s
  leaves : LeafTable s.blk
  links : JoinsLinked s.blk
  last : s.tmp.pq = [r]

theorem sameButTree_wrapped (r : NodeIdx) (s : State) : SameButTree s (wrapped r s) :=
  (sameButTree_setPq _ _).trans ((sameButTree_allocNode _ _).trans ((sameButTree_setPar _ _ _).trans
    (sameButTree_setRoot _ _)))

section

variable {s : State} {r : NodeIdx} (h : Merged s r)
include h

theorem Merged.nnode_add_one : s.blk.nnode.toNat + 1 = 2 * s.blk.nleaf.toNat := by
  have size := h.forest.size
  rwa [h.last] at size

/-- The one node without a parent is the last one of the arena. -/
theorem Merged.par_eq_nil_iff {i : NodeIdx} (node : i.toNat < s.blk.nnode.toNat) :
    (readNode s.blk i).par = nilIdx ↔ i = r := by
  have waiting := h.forest.waiting i
  rw [h.last, List.mem_singleton] at waiting
  exact ⟨fun none => waiting.2 ⟨node, none⟩, fun isLast => (waiting.1 isLast).2⟩

theorem Merged.last_eq : r = s.blk.nnode - 1#9 ∧ r.toNat + 1 = s.blk.nnode.toNat := by
  have size := h.nnode_add_one
  have top : (s.blk.nnode - 1#9).toNat + 1 = s.blk.nnode.toNat := by bv_omega
  have isLast := (h.par_eq_nil_iff (i := s.blk.nnode - 1#9) (by omega)).1 <|
    (h.forest.parents (s.blk.nnode - 1#9) (by omega)).resolve_right fun ⟨above, below⟩ => by omega
  rw [isLast] at top
  exact ⟨isLast.symm, top⟩

/-- R172 of a tree of two leaves or more, whose root is the last join. -/
theorem Merged.treeOk (two : 2 ≤ s.blk.nleaf.toNat) {b : Block} (same : SameArena s.blk b) (root : b.root = r) :
    TreeOk b := by
  obtain ⟨rootIs, rootLast⟩ := h.last_eq
  have size := h.nnode_add_one
  have joins := h.forest.joins
  have notNil : ∀ {i : NodeIdx}, i.toNat < s.blk.nnode.toNat → i ≠ nilIdx := ne_nil_of_toNat_lt
  constructor <;> simp only [isChildOf, same.freq, same.nnode, same.nleaf, same.readFreq, same.readLeaf, same.readNode,
    root]
  case leafCount => exact h.leaves.count
  case nodeCount =>
    rw [if_neg (by omega), if_neg (by omega)]
    omega
  case rootIs => rw [if_neg (by bv_omega), rootIs]
  case leaves => exact h.leaves.leaves
  case leafIndex => exact h.leaves.leafIndex
  case inner =>
    intro i low high
    have join := joins i low high
    have several : s.blk.nleaf.toNat ≠ 1 := by omega
    have ordered := (keyBefore_iff_nodeKey_lt _ _ _).1 join.ordered
    refine ⟨join.kind, h.links.sym i ⟨low, high⟩, join.c0Below, join.c0Par, ?_⟩
    rw [if_neg several]
    exact ⟨join.c1Below, join.c1Par, fun same => ordered.ne (congrArg (nodeKey s.blk) same)⟩
  case sums =>
    intro i low high
    have c1 : (readNode s.blk i).c1 ≠ nilIdx := notNil ((joins i low high).c1Below.trans high)
    rw [if_neg c1]
    exact h.links.count i ⟨low, high⟩
  case owners =>
    intro p i low high _ isChild
    have par : (readNode s.blk i).par = p ∧ i.toNat < p.toNat := by
      obtain rfl | rfl := isChild
      · exact ⟨(joins p low high).c0Par, (joins p low high).c0Below⟩
      · exact ⟨(joins p low high).c1Par, (joins p low high).c1Below⟩
    refine ⟨fun isRoot => notNil high ?_, par.1⟩
    rw [← par.1, (h.par_eq_nil_iff (par.2.trans high)).2 isRoot]
  case rootInternal => exact fun _ => (joins r (by omega) (by omega)).kind
  case parents =>
    intro i node
    by_cases isRoot : i = r
    · rw [if_pos isRoot]
      exact (h.par_eq_nil_iff node).2 isRoot
    · rw [if_neg isRoot]
      have some := mt (h.par_eq_nil_iff node).1 isRoot
      obtain ⟨above, inArena⟩ := (h.forest.parents i node).resolve_left some
      exact ⟨above, inArena, (h.links.linked i node).resolve_left some⟩

/-- R172 of the tree of a lone leaf, which hangs under a synthetic root. -/
theorem Merged.treeOk_wrapped (one : s.blk.nleaf.toNat = 1) : TreeOk (wrapped r s).blk := by
  have size := h.nnode_add_one
  have nnode : s.blk.nnode = 1#9 := BitVec.eq_of_toNat_eq (by change _ = 1; omega)
  have nleaf : s.blk.nleaf = 1#9 := BitVec.eq_of_toNat_eq one
  obtain rfl : r = 0#9 := by rw [h.last_eq.1, nnode]; rfl
  have old : (0#9).toNat < s.blk.nnode.toNat := by rw [nnode]; decide
  have node0 := readNode_wrapped_leaf (by rw [nnode]; decide) old
  have node1 := readNode_wrapped_root (by rw [nnode]; decide) old
  have leaves : LeafTable (wrapped 0#9 s).blk := by
    refine h.leaves.of_same (sameButTree_wrapped 0#9 s).freq (wrapped_nleaf 0#9 s) (wrapped_readLeaf 0#9 s)
      fun i leaf => ?_
    obtain rfl : i = 0#9 := by bv_omega
    rw [node0]
    exact ⟨rfl, rfl, rfl, rfl, rfl⟩
  have count : (readNode s.blk 0#9).count = (readNode (wrapped 0#9 s).blk 0#9).count := by rw [node0]
  rw [nnode] at node0 node1
  rw [wrapNode, count] at node1
  exact leaves.treeOk_of_single ((wrapped_nleaf 0#9 s).trans nleaf) ((wrapped_nnode 0#9 s).trans (by rw [nnode]; rfl))
    ((wrapped_root 0#9 s).trans nnode) (congrArg Node.par node0) node1

/-- Either way the root phase ends with the tree of R172. -/
theorem Merged.treeOk_rootPhase : TreeOk (rootPhase s).blk := by
  have size := h.nnode_add_one
  obtain ⟨_, rootLast⟩ := h.last_eq
  by_cases one : s.blk.nleaf.toNat = 1
  · rw [rootPhase_leaf h.last (h.leaves.leaves r (by omega)).1]
    exact h.treeOk_wrapped one
  · have two : 2 ≤ s.blk.nleaf.toNat := by omega
    rw [rootPhase_internal h.last (h.forest.last_internal h.last two)]
    exact h.treeOk two ⟨rfl, rfl, rfl, rfl, rfl⟩ rfl

end

/-- R172 of the tree BUILD leaves of a table with a positive count whose sum fits. -/
theorem exec_build_treeOk {s : State} (isLive : live s) (unbuilt : s.blk.tvalid = false) {a : Sym}
    (positive : readFreq s.blk a ≠ 0#64) (fits : totalFreq s.blk < 2 ^ 64) :
    ∃ t, SameButTree s t ∧ TreeOk (setTvalid t).blk ∧ exec .build s = .next (pushRsp stOk 0#64 (setTvalid t)) := by
  obtain ⟨all, start⟩ := buildStart_spec s
  have forest := start.forest all
  have leafBound := forest.leafBound
  have one := start.below a a.isLt positive
  have length := start.length
  rw [← all] at length one
  obtain ⟨u, same, _, ⟨loop, forest', single⟩ | ⟨_, overflows⟩⟩ := mergeLoop_spec 255 forest
    (List.ne_nil_of_length_pos (by omega)) (by omega)
  · obtain ⟨leaves, links⟩ : LeafTable u.blk ∧ JoinsLinked u.blk :=
      mergeLoop_keeps (P := fun s => LeafTable s.blk ∧ JoinsLinked s.blk)
        (fun _ _ _ next fits ⟨leaves, links⟩ => ⟨next.leafTable_joined leaves, next.joinsLinked_joined links fits⟩) 255
        forest ⟨start.leafTable all, start.joinsLinked all⟩ loop
    obtain ⟨r, last⟩ := List.length_eq_one_iff.1 single
    have merged : Merged u r := ⟨forest', leaves, links, last⟩
    refine ⟨rootPhase u, start.same.trans (same.trans (sameButTree_rootPhase u)), ?_,
      exec_build_merged isLive unbuilt (by bv_omega) loop⟩
    exact SameArena.treeOk (b := (rootPhase u).blk) ⟨rfl, rfl, rfl, rfl, rfl⟩ rfl merged.treeOk_rootPhase
  · rw [start.same.totalFreq] at overflows
    omega

end Sys2Proof.Machine
end

section
/-! The writer across many bits and a FLUSH: what it adds to the sink is the bits, padded with zeros to a whole number of
bytes (R29, R140, R143, R192). -/

namespace Sys2Proof.Machine

/-- The bits of WBUF that are not pending are zero (R29). -/
def LowBitsClear (b : Block) : Prop := ∀ i < 8 - b.wcnt.toNat, b.wbuf.getLsbD i = false

theorem lowBitsClear_wrBit (b : Bool) {s : State} (clear : LowBitsClear s.blk) : LowBitsClear (wrBit b s).blk := by
  by_cases eighth : s.blk.wcnt = 7#3
  · rw [wrBit_emits b eighth]
    exact fun _ _ => BitVec.getLsbD_zero
  · have more : (s.blk.wcnt + 1#3).toNat = s.blk.wcnt.toNat + 1 := by bv_omega
    rw [wrBit_pending b eighth]
    intro i low
    rw [setWriter_wcnt, more] at low
    rw [setWriter_wbuf, getLsbD_setBit _ _ _ _ (by omega), if_neg (by omega)]
    exact clear i (by omega)

theorem lowBitsClear_wrBits (bits : List Bool) {s : State} (clear : LowBitsClear s.blk) :
    LowBitsClear (wrBits bits s).blk := by
  induction bits generalizing s with
  | nil => exact clear
  | cons b bits ih => exact ih (lowBitsClear_wrBit b clear)

/-- `WrBit` only appends to the sink. -/
theorem snk_prefix_wrBits (bits : List Bool) (s : State) : s.env.snk <+: (wrBits bits s).env.snk := by
  induction bits generalizing s with
  | nil => exact List.prefix_rfl
  | cons b bits ih =>
    refine List.IsPrefix.trans ?_ (ih (wrBit b s))
    by_cases eighth : s.blk.wcnt = 7#3
    · rw [wrBit_emits b eighth]
      exact List.prefix_append _ _
    · rw [wrBit_pending b eighth]
      exact List.prefix_rfl

/-- The writer neither reads nor writes the table and the tree. -/
theorem sameArena_wrBits (bits : List Bool) (s : State) : SameArena s.blk (wrBits bits s).blk := by
  obtain ⟨_, _, _, e⟩ := wrBits_frame bits s
  rw [e]
  exact ⟨rfl, rfl, rfl, rfl, rfl⟩

theorem wrBits_append (bits more : List Bool) (s : State) : wrBits (bits ++ more) s = wrBits more (wrBits bits s) :=
  List.foldl_append

/-- The byte FLUSH emits is the pending bits and zeros. -/
theorem byteBits_wbuf {b : Block} (clear : LowBitsClear b) :
    byteBits b.wbuf = pendingBits b ++ List.replicate (8 - b.wcnt.toNat) false := by
  have zeros : (byteBits b.wbuf).drop b.wcnt.toNat = List.replicate (8 - b.wcnt.toNat) false := by
    refine List.ext_getElem (by simp) fun i _ inRange => ?_
    rw [List.length_replicate] at inRange
    rw [List.getElem_drop, getElem_byteBits, List.getElem_replicate]
    exact clear _ (by omega)
  rw [← zeros, pendingBits, List.take_append_drop]

/-- FLUSH of a live block pads the pending bits to a byte (R143). -/
theorem exec_flush_pads {s : State} (isLive : live s) (clear : LowBitsClear s.blk) :
    ∃ t bytes pad, exec .flush s = .next (pushRsp stOk 0#64 t) ∧ SameArena s.blk t.blk ∧
      t.env.snk = s.env.snk ++ bytes ∧ pad < 8 ∧ streamBits bytes = pendingBits s.blk ++ List.replicate pad false := by
  by_cases empty : s.blk.wcnt = 0#3
  · refine ⟨_, [], 0, exec_flush_empty isLive empty, ⟨rfl, rfl, rfl, rfl, rfl⟩, (List.append_nil _).symm, by omega, ?_⟩
    simp [pendingBits, empty, streamBits]
  · have some : s.blk.wcnt.toNat ≠ 0 := fun none => empty (BitVec.eq_of_toNat_eq none)
    refine ⟨_, [s.blk.wbuf], 8 - s.blk.wcnt.toNat, exec_flush_pending isLive empty, ⟨rfl, rfl, rfl, rfl, rfl⟩, rfl,
      by omega, ?_⟩
    simp [streamBits, byteBits_wbuf clear]

/-- Bits written from an empty writer on, and a FLUSH: the sink gets these bits, padded to a whole number of bytes. -/
theorem exec_flush_of_wrBits {s u : State} {bits : List Bool} (isLive : live s) (empty : s.blk.wcnt = 0#3)
    (clear : LowBitsClear s.blk) (blk : u.blk = (wrBits bits s).blk) (snk : u.env.snk = (wrBits bits s).env.snk) :
    ∃ t payload pad, exec .flush u = .next (pushRsp stOk 0#64 t) ∧ SameArena s.blk t.blk ∧
      t.env.snk = s.env.snk ++ payload ∧ pad < 8 ∧ streamBits payload = bits ++ List.replicate pad false := by
  have stillLive : live u := by
    obtain ⟨_, _, _, e⟩ := wrBits_frame bits s
    rw [live, blk, e]
    exact isLive
  obtain ⟨t, bytes, pad, e, arena, last, few, padded⟩ :=
    exec_flush_pads stillLive (by rw [blk]; exact lowBitsClear_wrBits bits clear)
  obtain ⟨whole, split⟩ := snk_prefix_wrBits bits s
  have written : streamBits whole ++ pendingBits u.blk = bits := by
    have all := bitsWritten_wrBits bits s
    have nonePending : pendingBits s.blk = [] := by rw [pendingBits, empty]; rfl
    rw [bitsWritten, bitsWritten, ← split, ← blk, nonePending, List.append_nil] at all
    simpa [streamBits] using all
  refine ⟨t, whole ++ bytes, pad, e, (sameArena_wrBits bits s).trans (blk ▸ arena), ?_, few, ?_⟩
  · rw [last, snk, ← split, List.append_assoc]
  · rw [streamBits, List.flatMap_append, ← written, List.append_assoc, ← padded]
    rfl

end Sys2Proof.Machine
end

section
/-! The host's loops over the source (R216 (a), (d)): RDBYTE until EOD, with one command for each byte. -/

namespace Sys2Proof.Machine

/-! ### Issuing a command -/

section

variable {i : Instr} {s t : State} {st : BitVec 8} {rd : BitVec 64} (wellFormed : i.wellFormed = true)
  (e : exec i s = .next (pushRsp st rd t))
include wellFormed e

/-- The sequence goes on with the response the command gave. -/
theorem issue_of_exec (k : Response → State → HostRun) : issue i s k = k ⟨st, rd⟩ (pushRsp st rd t) := by
  rw [issue, acceptCommand_ok (decode_encode i wellFormed), e]
  exact congrArg (k · _) (lastRsp_pushRsp t st rd)

/-- In compress it goes on after OK and EOD (R216). -/
theorem issueOk_of_exec (fine : st = stOk ∨ st = stEod) (k : Response → State → HostRun) :
    issueOk i s k = k ⟨st, rd⟩ (pushRsp st rd t) := by
  rw [issueOk, issue_of_exec wellFormed e, if_pos fine]

end

theorem rdByte_ofNat (st : BitVec 8) (b : Byte) : rdByte ⟨st, BitVec.ofNat 64 b.toNat⟩ = b := by
  apply BitVec.eq_of_toNat_eq
  simp [rdByte]

/-! ### What the host's loops move besides -/

/-- The same block and sink with other transient registers, another port and another source position. -/
def State.beside (x : Transient) (p : Port) (q : ℕ) (s : State) : State :=
  { s with tmp := x, port := p, env.spos := q }

/-- The port after one more response. -/
def Port.answered (st : BitVec 8) (rd : BitVec 64) (p : Port) : Port :=
  { p with rsps := p.rsps ++ [{ st := st, rd := rd }] }

theorem pushRsp_beside (st : BitVec 8) (rd : BitVec 64) (x : Transient) (p : Port) (q : ℕ) (s : State) :
    pushRsp st rd (s.beside x p q) = s.beside x (p.answered st rd) q := rfl

/-- `WrBit` neither reads nor writes them. -/
theorem wrBit_beside (b : Bool) (x : Transient) (p : Port) (q : ℕ) (s : State) :
    wrBit b (s.beside x p q) = (wrBit b s).beside x p q := by
  by_cases eighth : s.blk.wcnt = 7#3
  · rw [wrBit_emits b eighth, wrBit_emits b (s := s.beside x p q) eighth]
    rfl
  · rw [wrBit_pending b eighth, wrBit_pending b (s := s.beside x p q) eighth]
    rfl

theorem wrBits_beside (bits : List Bool) (x : Transient) (p : Port) (q : ℕ) (s : State) :
    wrBits bits (s.beside x p q) = (wrBits bits s).beside x p q := by
  induction bits generalizing s with
  | nil => rfl
  | cons b bits ih => rw [wrBits_cons, wrBit_beside, ih, wrBits_cons]

/-! ### The loop -/

/-- The loop of R216 (a) and (d), for the command `op b` at each byte `b`. -/
def scanLoop (op : Byte → Instr) : ℕ → State → (State → HostRun) → HostRun
  | 0, s, k => k s
  | n + 1, s, k =>
    issueOk .rdbyte s fun r s1 =>
      if r.st = stEod then k s1
      else issueOk (op (rdByte r)) s1 fun _ s2 => scanLoop op n s2 k

theorem countLoop_eq_scanLoop (n : ℕ) (s : State) (k : State → HostRun) : countLoop n s k = scanLoop .count n s k := by
  induction n generalizing s with
  | zero => rfl
  | succ n ih => simp only [countLoop, scanLoop, ih]

theorem encodeLoop_eq_scanLoop (n : ℕ) (s : State) (k : State → HostRun) :
    encodeLoop n s k = scanLoop .encode n s k := by
  induction n generalizing s with
  | zero => rfl
  | succ n ih => simp only [encodeLoop, scanLoop, ih]

/-- From a state that is ready for the bytes to come, `op b` answers OK and does `act b`, up to the transient registers,
and is then ready for the rest. -/
structure Scans (op : Byte → Instr) (act : Byte → State → State) (Ready : List Byte → State → Prop) : Prop where
  wellFormed : ∀ b, (op b).wellFormed = true
  isLive : ∀ bs s, Ready bs s → live s
  ready_beside : ∀ bs s x p q, Ready bs s → Ready bs (s.beside x p q)
  act_beside : ∀ b s x p q, act b (s.beside x p q) = (act b s).beside x p q
  act_src : ∀ b s, (act b s).env.src = s.env.src
  answers : ∀ b bs s, Ready (b :: bs) s → ∃ rd x, exec (op b) s = .next (pushRsp stOk rd ((act b s).withTmp x))
  next : ∀ b bs s, Ready (b :: bs) s → Ready bs (act b s)

theorem Scans.foldl_beside {op : Byte → Instr} {act : Byte → State → State} {Ready : List Byte → State → Prop}
    (h : Scans op act Ready) (bs : List Byte) (x : Transient) (p : Port) (q : ℕ) (s : State) :
    bs.foldl (fun u b => act b u) (s.beside x p q) = (bs.foldl (fun u b => act b u) s).beside x p q :=
  List.foldl_hom (State.beside x p q) fun s b => h.act_beside b s x p q

/-- The loop does `act b` for each byte left in the source, and then goes on. -/
theorem Scans.loop {op : Byte → Instr} {act : Byte → State → State} {Ready : List Byte → State → Prop}
    (h : Scans op act Ready) {bs : List Byte} {s : State} (ready : Ready bs s)
    (left : s.env.src.drop s.env.spos = bs) {n : ℕ} (bound : bs.length < n) :
    ∃ x p q, ∀ k, scanLoop op n s k = k ((bs.foldl (fun u b => act b u) s).beside x p q) := by
  have isLive := h.isLive _ _ ready
  obtain ⟨n, rfl⟩ : ∃ m, n = m + 1 := ⟨n - 1, by omega⟩
  induction bs generalizing s n with
  | nil =>
    have noByte : s.env.src.length ≤ s.env.spos := List.drop_eq_nil_iff.1 left
    refine ⟨s.tmp, s.port.answered stEod 0#64, s.env.spos, fun k => ?_⟩
    rw [scanLoop, issueOk_of_exec rfl (exec_rdbyte_none isLive (srcNext_exhausted noByte)) (.inr rfl), if_pos rfl]
    rfl
  | cons b bs ih =>
    have inSource : s.env.spos < s.env.src.length := by
      by_contra noByte
      rw [List.drop_eq_nil_of_le (not_lt.1 noByte)] at left
      cases left
    rw [List.drop_eq_getElem_cons inSource, List.cons.injEq] at left
    obtain ⟨rfl, rest⟩ := left
    have read := exec_rdbyte_some isLive (srcNext_byte inSource)
    generalize s.env.src[s.env.spos] = b at *
    obtain ⟨rd, x, e⟩ := h.answers _ _ _ <|
      h.ready_beside _ _ s.tmp (s.port.answered stOk (BitVec.ofNat 64 b.toNat)) (s.env.spos + 1) ready
    rw [h.act_beside] at e
    have ready' := h.ready_beside _ _ x ((s.port.answered stOk (BitVec.ofNat 64 b.toNat)).answered stOk rd)
      (s.env.spos + 1) (h.next _ _ _ ready)
    obtain ⟨n, rfl⟩ : ∃ m, n = m + 1 := ⟨n - 1, by simp only [List.length_cons] at bound; omega⟩
    obtain ⟨x', p, q, goesOn⟩ := ih ready' (by rw [← rest, ← h.act_src b s]; rfl) (h.isLive _ _ ready') n
      (by simpa using bound)
    refine ⟨x', p, q, fun k => ?_⟩
    rw [scanLoop, issueOk_of_exec rfl read (.inl rfl), if_neg (show stOk ≠ stEod by decide), rdByte_ofNat]
    refine (issueOk_of_exec (h.wellFormed b) e (.inl rfl) _).trans ((goesOn k).trans ?_)
    rw [h.foldl_beside]
    rfl

/-! ### Counting the bytes (R216 (a)) -/

/-- What COUNT does: one more in FREQ[a]. -/
def countOne (a : Sym) (s : State) : State := setFreq a (readFreq s.blk a + 1#64) s

/-- The counts of the bytes to come fit (R150). -/
structure CountsFit (bs : List Byte) (s : State) : Prop where
  isLive : live s
  unbuilt : s.blk.tvalid = false
  fit : ∀ a : Sym, (readFreq s.blk a).toNat + bs.count a < 2 ^ 64

theorem CountsFit.next {a : Sym} {bs : List Byte} {s : State} (h : CountsFit (a :: bs) s) :
    CountsFit bs (countOne a s) := by
  refine ⟨h.isLive, h.unbuilt, fun x => ?_⟩
  have fit := h.fit x
  by_cases isA : x = a
  · subst isA
    rw [List.count_cons_self] at fit
    rw [countOne, readFreq_setFreq_same, toNat_add_one (by omega)]
    omega
  · rw [List.count_cons_of_ne (Ne.symm isA)] at fit
    rwa [countOne, readFreq_setFreq_other isA]

theorem scans_count : Scans .count countOne CountsFit where
  wellFormed _ := rfl
  isLive _ _ h := h.isLive
  ready_beside _ _ _ _ _ h := ⟨h.isLive, h.unbuilt, h.fit⟩
  act_beside _ _ _ _ _ := rfl
  act_src _ _ := rfl
  answers a bs s h := by
    have fit := h.fit a
    rw [List.count_cons_self] at fit
    exact ⟨_, s.tmp, exec_count_adds h.isLive h.unbuilt fun full => by
      have := (eq_allOnes_iff_toNat _).1 full
      omega⟩
  next _ _ _ h := h.next

/-- The table after the counts of some bytes. -/
def tally (bs : List Byte) (s : State) : State := bs.foldl (fun u b => countOne b u) s

theorem readFreq_tally (bs : List Byte) (s : State) (a : Sym) :
    readFreq (tally bs s).blk a = readFreq s.blk a + BitVec.ofNat 64 (bs.count a) := by
  induction bs generalizing s with
  | nil => exact (BitVec.add_zero _).symm
  | cons b bs ih =>
    refine (ih (countOne b s)).trans ?_
    by_cases isB : a = b
    · subst isB
      rw [countOne, readFreq_setFreq_same, List.count_cons_self, BitVec.add_assoc, ← BitVec.ofNat_add, Nat.add_comm]
    · rw [countOne, readFreq_setFreq_other isB, List.count_cons_of_ne (Ne.symm isB)]

/-- Counting changes FREQ only. -/
theorem tally_frame (bs : List Byte) (s : State) : ∃ freq, tally bs s = { s with blk.freq := freq } := by
  induction bs generalizing s with
  | nil => exact ⟨_, rfl⟩
  | cons b bs ih =>
    obtain ⟨freq, e⟩ := ih (countOne b s)
    exact ⟨freq, e⟩

/-- R216 (a): the loop counts every byte left in the source. -/
theorem countLoop_eq {bs : List Byte} {s : State} (ready : CountsFit bs s) (left : s.env.src.drop s.env.spos = bs)
    {n : ℕ} (bound : bs.length < n) : ∃ x p q, ∀ k, countLoop n s k = k ((tally bs s).beside x p q) := by
  simp only [countLoop_eq_scanLoop]
  exact scans_count.loop ready left bound

/-! ### Emitting their codes (R216 (d)) -/

/-- There is a tree with a leaf for each of the bytes to come (R190). -/
structure Encodable (bs : List Byte) (s : State) : Prop where
  isLive : live s
  built : s.blk.tvalid = true
  tree : TreeOk s.blk
  leaf : ∀ a ∈ bs, readLeaf s.blk a ≠ nilIdx

/-- What ENCODE does, but for CSTK and CLEN. -/
def emitOne (a : Sym) (s : State) : State := wrBits (code s.blk a) s

theorem Encodable.next {a : Sym} {bs : List Byte} {s : State} (h : Encodable (a :: bs) s) :
    Encodable bs (emitOne a s) := by
  have arena := sameArena_wrBits (code s.blk a) s
  obtain ⟨_, _, _, e⟩ := wrBits_frame (code s.blk a) s
  rw [e] at arena
  rw [emitOne, e]
  refine ⟨h.isLive, h.built, arena.treeOk rfl h.tree, fun x hx => ?_⟩
  rw [arena.readLeaf]
  exact h.leaf x (List.mem_cons_of_mem _ hx)

theorem scans_encode : Scans .encode emitOne Encodable where
  wellFormed _ := rfl
  isLive _ _ h := h.isLive
  ready_beside _ _ _ _ _ h := ⟨h.isLive, h.built, h.tree, h.leaf⟩
  act_beside a s x p q := wrBits_beside (code s.blk a) x p q s
  act_src a s := by
    obtain ⟨_, _, _, e⟩ := wrBits_frame (code s.blk a) s
    rw [emitOne, e]
  answers a bs s h := by
    obtain ⟨stk, e⟩ := exec_encode_live h.isLive h.built h.tree (h.leaf a List.mem_cons_self)
    exact ⟨_, _, e⟩
  next _ _ _ h := h.next

/-- The tree stays, so the codes of a whole sequence are those of the tree it begins with. -/
theorem foldl_emitOne (bs : List Byte) (s : State) :
    bs.foldl (fun u b => emitOne b u) s = wrBits (bs.flatMap (code s.blk)) s := by
  induction bs generalizing s with
  | nil => rfl
  | cons b bs ih =>
    have sameCode : code (emitOne b s).blk = code s.blk := funext (sameArena_wrBits _ s).code
    rw [List.foldl_cons, ih, sameCode, emitOne, ← wrBits_append, List.flatMap_cons]

/-- R216 (d): the loop writes the code of every byte left in the source. -/
theorem encodeLoop_eq {bs : List Byte} {s : State} (ready : Encodable bs s) (left : s.env.src.drop s.env.spos = bs)
    {n : ℕ} (bound : bs.length < n) :
    ∃ x p q, ∀ k, encodeLoop n s k = k ((wrBits (bs.flatMap (code s.blk)) s).beside x p q) := by
  simp only [encodeLoop_eq_scanLoop, ← foldl_emitOne]
  exact scans_encode.loop ready left bound

end Sys2Proof.Machine
end

section
/-! The compress sequence as a whole (R210 to R216): from a block just reset it writes the header, made of the counts of the
input, and then the codes of the input's bytes. -/

namespace Sys2Proof.Machine

/-! ### The table of an input's counts -/

theorem mem_allSyms (a : Sym) : a ∈ allSyms :=
  List.mem_map.2 ⟨a.toNat, List.mem_range.2 a.isLt, BitVec.ofNat_toNat 8 a⟩

theorem nodup_allSyms : allSyms.Nodup := by
  refine List.Nodup.map_on (fun m hm n hn same => ?_) List.nodup_range
  have := congrArg BitVec.toNat same
  rwa [BitVec.toNat_ofNat, BitVec.toNat_ofNat, Nat.mod_eq_of_lt (List.mem_range.1 hm),
    Nat.mod_eq_of_lt (List.mem_range.1 hn)] at this

/-- Every byte of a sequence is counted by one symbol. -/
theorem sum_count_allSyms (bs : List Byte) : (allSyms.map fun a => bs.count a).sum = bs.length := by
  have each : ∀ a ∈ (bs : Multiset Byte), a ∈ allSyms.toFinset := fun a _ => List.mem_toFinset.2 (mem_allSyms a)
  rw [← List.sum_toFinset _ nodup_allSyms, ← Multiset.coe_card, ← Multiset.sum_count_eq_card each]
  simp only [Multiset.coe_count]

/-- FREQ holds the counts of the input, which is not too long for them. -/
structure Counted (input : List Byte) (b : Block) : Prop where
  short : input.length < 2 ^ 64
  freq : ∀ a : Sym, readFreq b a = BitVec.ofNat 64 (input.count a)

/-- The occurring symbols, ascending (R213). -/
def occurring (input : List Byte) : List Sym := allSyms.filter (· ∈ input)

section

variable {input : List Byte} {b : Block} (h : Counted input b)
include h

theorem Counted.toNat_readFreq (a : Sym) : (readFreq b a).toNat = input.count a := by
  rw [h.freq, BitVec.toNat_ofNat, Nat.mod_eq_of_lt (List.count_le_length.trans_lt h.short)]

theorem Counted.readFreq_ne_zero_iff (a : Sym) : readFreq b a ≠ 0#64 ↔ a ∈ input := by
  rw [← List.count_pos_iff, ← h.toNat_readFreq, ne_eq, ← BitVec.toNat_inj]
  exact Nat.pos_iff_ne_zero.symm

/-- The sum of the table is the length of the input (R212). -/
theorem Counted.totalFreq_eq : totalFreq b = input.length := by
  rw [totalFreq, freq_toList_eq_map, ← sum_count_allSyms input, allSyms, List.map_map, List.map_map]
  exact congrArg List.sum (List.map_congr_left fun n _ => h.toNat_readFreq _)

theorem Counted.filter_allSyms : allSyms.filter (fun a => readFreq b a ≠ 0#64) = occurring input :=
  List.filter_congr fun a _ => decide_eq_decide.2 (h.readFreq_ne_zero_iff a)

/-- NLEAF is the number of occurring symbols (R35). -/
theorem Counted.nleaf_eq (tree : TreeOk b) : b.nleaf.toNat = (occurring input).length := by
  rw [tree.leafCount, freq_toList_eq_map, ← h.filter_allSyms, allSyms, List.filter_map, List.filter_map,
    List.length_map, List.length_map]
  rfl

end

theorem occurring_ne_nil {input : List Byte} (some : input ≠ []) : occurring input ≠ [] := by
  obtain ⟨a, rest, rfl⟩ := List.exists_cons_of_ne_nil some
  exact List.ne_nil_of_mem (List.mem_filter.2 ⟨mem_allSyms a, by simp⟩)

/-! ### The header (R212 to R214) -/

/-- The same block with more bytes in the sink, under another port. -/
def State.emitted (bytes : List Byte) (p : Port) (s : State) : State :=
  { s with env.snk := s.env.snk ++ bytes, port := p }

theorem emitted_emitted (bytes more : List Byte) (p p' : Port) (s : State) :
    (s.emitted bytes p).emitted more p' = s.emitted (bytes ++ more) p' := by
  simp only [State.emitted, List.append_assoc]

/-- The scan of R216 (c): for each symbol with a positive count `n`, the command `op a n`. -/
def writeScan (op : Sym → Count → Instr) : List Sym → State → (State → HostRun) → HostRun
  | [], s, k => k s
  | a :: as, s, k =>
    issueOk (.getfreq a) s fun r s1 =>
      if r.rd = 0#64 then writeScan op as s1 k
      else issueOk (op a r.rd) s1 fun _ s2 => writeScan op as s2 k

theorem writeSyms_eq_writeScan (as : List Sym) (s : State) (k : State → HostRun) :
    writeSyms as s k = writeScan (fun a _ => .wrbyte (a.setWidth 64)) as s k := by
  induction as generalizing s with
  | nil => rfl
  | cons a as ih => simp only [writeSyms, writeScan, ih]

theorem writeCounts_eq_writeScan (as : List Sym) (s : State) (k : State → HostRun) :
    writeCounts as s k = writeScan (fun _ n => .wrword n) as s k := by
  induction as generalizing s with
  | nil => rfl
  | cons a as ih => simp only [writeCounts, writeScan, ih]

/-- What the command `op a n` writes is `bytes a n`, under the parameters `cfg`. -/
structure Writes (cfg : Config) (op : Sym → Count → Instr) (bytes : Sym → Count → List Byte) : Prop where
  wellFormed : ∀ a n, (op a n).wellFormed = true
  writes : ∀ a n s, live s → s.cfg = cfg →
    exec (op a n) s = .next (pushRsp stOk 0#64 (s.emitted (bytes a n) s.port))

/-- The bytes a scan of R216 (c) writes: those of each symbol with a positive count. -/
def scanBytes (bytes : Sym → Count → List Byte) (as : List Sym) (b : Block) : List Byte :=
  (as.filter fun a => readFreq b a ≠ 0#64).flatMap fun a => bytes a (readFreq b a)

theorem scanBytes_cons_zero (bytes : Sym → Count → List Byte) {a : Sym} {b : Block} (zero : readFreq b a = 0#64)
    (as : List Sym) : scanBytes bytes (a :: as) b = scanBytes bytes as b := by simp [scanBytes, zero]

theorem scanBytes_cons_positive (bytes : Sym → Count → List Byte) {a : Sym} {b : Block}
    (positive : readFreq b a ≠ 0#64) (as : List Sym) :
    scanBytes bytes (a :: as) b = bytes a (readFreq b a) ++ scanBytes bytes as b := by simp [scanBytes, positive]

theorem Writes.scan {op : Sym → Count → Instr} {bytes : Sym → Count → List Byte} {s : State}
    (h : Writes s.cfg op bytes) (isLive : live s) (as : List Sym) :
    ∃ p, ∀ k, writeScan op as s k = k (s.emitted (scanBytes bytes as s.blk) p) := by
  induction as generalizing s with
  | nil => exact ⟨s.port, fun k => congrArg k (by simp [State.emitted, scanBytes])⟩
  | cons a as ih =>
    have asked := exec_getfreq_live isLive a
    by_cases zero : readFreq s.blk a = 0#64
    · obtain ⟨p, goesOn⟩ := ih (s := pushRsp stOk (readFreq s.blk a) s) h isLive
      refine ⟨p, fun k => ?_⟩
      rw [writeScan, issueOk_of_exec rfl asked (.inl rfl), if_pos zero, goesOn, scanBytes_cons_zero bytes zero]
      rfl
    · have written := h.writes a (readFreq s.blk a) (pushRsp stOk (readFreq s.blk a) s) isLive rfl
      obtain ⟨p, goesOn⟩ := ih (s := pushRsp stOk 0#64 ((pushRsp stOk (readFreq s.blk a) s).emitted
        (bytes a (readFreq s.blk a)) (s.port.answered stOk (readFreq s.blk a)))) h isLive
      refine ⟨p, fun k => ?_⟩
      rw [writeScan, issueOk_of_exec rfl asked (.inl rfl), if_neg zero, scanBytes_cons_positive bytes zero,
        ← emitted_emitted _ _ s.port]
      exact (issueOk_of_exec (h.wellFormed _ _) written (.inl rfl) _).trans (goesOn k)

/-- The byte operand that holds a symbol (R96). -/
theorem byteOperand_setWidth (a : Sym) : byteOperand (a.setWidth 64) = a := by
  apply BitVec.eq_of_toNat_eq
  simpa [byteOperand] using a.isLt

theorem writeSyms_eq {s : State} (isLive : live s) (as : List Sym) :
    ∃ p, ∀ k, writeSyms as s k = k (s.emitted (as.filter fun a => readFreq s.blk a ≠ 0#64) p) := by
  have writes : Writes s.cfg (fun a _ => .wrbyte (a.setWidth 64)) (fun a _ => [a]) :=
    ⟨fun _ _ => rfl, fun a _ u isLive _ => by
      rw [exec_wrbyte_live isLive, byteOperand_setWidth]
      rfl⟩
  obtain ⟨p, goesOn⟩ := writes.scan isLive as
  exact ⟨p, fun k => by rw [writeSyms_eq_writeScan, goesOn, scanBytes, List.flatMap_singleton']⟩

theorem writeCounts_eq {s : State} (isLive : live s) (as : List Sym) :
    ∃ p, ∀ k, writeCounts as s k = k (s.emitted ((as.filter fun a => readFreq s.blk a ≠ 0#64).flatMap fun a =>
      wordToBytes s.cfg.wordBigEndian (readFreq s.blk a)) p) := by
  have writes : Writes s.cfg (fun _ n => .wrword n) (fun _ n => wordToBytes s.cfg.wordBigEndian n) :=
    ⟨fun _ _ => rfl, fun _ n u isLive sameCfg => by
      rw [exec_wrword_live isLive, ← sameCfg]
      rfl⟩
  obtain ⟨p, goesOn⟩ := writes.scan isLive as
  exact ⟨p, fun k => by rw [writeCounts_eq_writeScan, goesOn, scanBytes]⟩

/-- Both scans over the whole table of an input. -/
theorem writeTables_eq {input : List Byte} {s : State} (isLive : live s) (counted : Counted input s.blk) :
    ∃ p, ∀ k, (writeSyms allSyms s fun u => writeCounts allSyms u k) =
      k (s.emitted (occurring input ++ (occurring input).flatMap fun a =>
        wordToBytes s.cfg.wordBigEndian (BitVec.ofNat 64 (input.count a))) p) := by
  obtain ⟨p, syms⟩ := writeSyms_eq isLive allSyms
  rw [counted.filter_allSyms] at syms
  have counted' : Counted input (s.emitted (occurring input) p).blk := counted
  obtain ⟨p', counts⟩ := writeCounts_eq (s := s.emitted (occurring input) p) isLive allSyms
  rw [counted'.filter_allSyms] at counts
  simp only [counted'.freq] at counts
  refine ⟨p', fun k => (syms _).trans ((counts k).trans ?_)⟩
  rw [emitted_emitted]
  rfl

/-- N − 1 in one byte (R212): NLEAF is at most 256. -/
theorem byteOperand_nleaf {n : BitVec 9} (some : n ≠ 0#9) :
    byteOperand (rdOfNleaf n - 1#64) = BitVec.ofNat 8 (n.toNat - 1) := by
  have positive : n.toNat ≠ 0 := fun none => some (BitVec.eq_of_toNat_eq none)
  have less : (rdOfNleaf n - 1#64).toNat = n.toNat - 1 := by
    rw [rdOfNleaf_eq_ofNat]
    bv_omega
  rw [byteOperand_eq_ofNat, less]
  exact BitVec.eq_of_toNat_eq (by simp)

/-- The header of the compressed stream: N − 1, the symbols, their counts (R210). -/
def header (big : Bool) (input : List Byte) : List Byte :=
  [BitVec.ofNat 8 ((occurring input).length - 1)] ++ occurring input ++
    (occurring input).flatMap fun a => wordToBytes big (BitVec.ofNat 64 (input.count a))

/-! ### The phases of the sequence -/

/-- A block just reset, with the input as the source and an empty sink (R216). -/
structure ReadyFor (input : List Byte) (s : State) : Prop where
  isLive : live s
  unbuilt : s.blk.tvalid = false
  freq : ∀ a : Sym, readFreq s.blk a = 0#64
  wcnt : s.blk.wcnt = 0#3
  clear : LowBitsClear s.blk
  src : s.env.src = input
  spos : s.env.spos = 0
  snk : s.env.snk = []

/-- The tree of the input's counts stands, and nothing has been written (R216 (b)). -/
structure TreeFor (input : List Byte) (cfg : Config) (s : State) : Prop where
  isLive : live s
  built : s.blk.tvalid = true
  tree : TreeOk s.blk
  counted : Counted input s.blk
  wcnt : s.blk.wcnt = 0#3
  clear : LowBitsClear s.blk
  src : s.env.src = input
  snk : s.env.snk = []
  cfg : s.cfg = cfg

/-- R216 (a), (b): the counts of the input, and BUILD. -/
theorem ReadyFor.build {input : List Byte} {s : State} (h : ReadyFor input s) (some : input ≠ [])
    (short : input.length < 2 ^ 64) :
    ∃ t, TreeFor input s.cfg t ∧ ∀ k : State → HostRun,
      (countLoop (s.env.src.length + 1) s fun s1 => issueOk .build s1 fun _ s2 => k s2) = k t := by
  have fit : CountsFit input s := by
    refine ⟨h.isLive, h.unbuilt, fun a => ?_⟩
    rw [h.freq a]
    exact (Nat.zero_add _).trans_lt (List.count_le_length.trans_lt short)
  have bound : input.length < s.env.src.length + 1 := by rw [h.src]; omega
  obtain ⟨x, p, q, counts⟩ := countLoop_eq fit (by rw [h.spos, h.src, List.drop_zero]) bound
  have freq : ∀ a, readFreq (tally input s).blk a = BitVec.ofNat 64 (input.count a) := fun a => by
    rw [readFreq_tally, h.freq, BitVec.zero_add]
  obtain ⟨table, e⟩ := tally_frame input s
  rw [e] at freq counts
  obtain ⟨a, rest, split⟩ := List.exists_cons_of_ne_nil some
  have counted : Counted input (({ s with blk.freq := table } : State).beside x p q).blk := ⟨short, freq⟩
  obtain ⟨t, same, tree, built⟩ := exec_build_treeOk (s := ({ s with blk.freq := table } : State).beside x p q) h.isLive
    h.unbuilt ((counted.readFreq_ne_zero_iff a).2 (by simp [split])) (counted.totalFreq_eq.trans_lt short)
  refine ⟨pushRsp stOk 0#64 (setTvalid t), ?_, fun k => (counts _).trans (issueOk_of_exec rfl built (.inl rfl) _)⟩
  obtain ⟨_, _, _, _, _, _, rfl⟩ := same
  exact ⟨h.isLive, rfl, tree, ⟨short, freq⟩, h.wcnt, h.clear, h.src, h.snk, rfl⟩

section

variable {input : List Byte} {cfg : Config} {s : State} (h : TreeFor input cfg s)
include h

/-- The occurring symbols have leaves. -/
theorem TreeFor.readLeaf_ne_nil {a : Sym} (occurs : a ∈ input) : readLeaf s.blk a ≠ nilIdx := by
  have index := h.tree.leafIndex a
  rw [if_neg ((h.counted.readFreq_ne_zero_iff a).2 occurs)] at index
  intro noLeaf
  have few := h.tree.nleaf_le
  rw [noLeaf] at index
  exact absurd index.1 (Nat.not_lt_of_le (few.trans (by decide)))

/-- R216 (c): the header. -/
theorem TreeFor.writeHeader (some : input ≠ []) :
    ∃ p, ∀ k : State → HostRun,
      (issueOk .getnleaf s fun r s3 =>
        if r.rd = 0#64 then finish .success s3
        else issueOk (.wrbyte (r.rd - 1#64)) s3 fun _ s4 =>
          writeSyms allSyms s4 fun s5 => writeCounts allSyms s5 k) =
        k (s.emitted (header cfg.wordBigEndian input) p) := by
  have nleaf := h.counted.nleaf_eq h.tree
  have leaf : s.blk.nleaf ≠ 0#9 := by
    intro none
    rw [none] at nleaf
    exact occurring_ne_nil some (List.length_eq_zero_iff.1 nleaf.symm)
  have answer : rdOfNleaf s.blk.nleaf ≠ 0#64 := by
    rw [rdOfNleaf]
    bv_omega
  have first := exec_wrbyte_live (s := pushRsp stOk (rdOfNleaf s.blk.nleaf) s) h.isLive (rdOfNleaf s.blk.nleaf - 1#64)
  rw [byteOperand_nleaf leaf, nleaf] at first
  obtain ⟨p, tables⟩ := writeTables_eq (s := s.emitted [BitVec.ofNat 8 ((occurring input).length - 1)]
    ((s.port.answered stOk (rdOfNleaf s.blk.nleaf)).answered stOk 0#64)) h.isLive h.counted
  refine ⟨p, fun k => ?_⟩
  rw [issueOk_of_exec rfl (exec_getnleaf_live h.isLive) (.inl rfl), if_neg answer]
  refine (issueOk_of_exec rfl first (.inl rfl) _).trans ((tables k).trans ?_)
  rw [emitted_emitted, ← List.append_assoc, ← h.cfg]
  rfl

/-- R216 (d): the codes of the input, and the FLUSH. -/
theorem TreeFor.writePayload (bytes : List Byte) (p : Port) :
    ∃ t payload pad, SameArena s.blk t.blk ∧ t.env.snk = bytes ++ payload ∧ pad < 8 ∧
      streamBits payload = input.flatMap (code s.blk) ++ List.replicate pad false ∧
      ∀ k : State → HostRun, (encodeLoop (input.length + 1) (rewindSource (s.emitted bytes p)) fun s7 =>
        issueOk .flush s7 fun _ s8 => k s8) = k t := by
  have ready : Encodable input (rewindSource (s.emitted bytes p)) :=
    ⟨h.isLive, h.built, h.tree, fun _ occurs => h.readLeaf_ne_nil occurs⟩
  obtain ⟨x, p', q, codes⟩ := encodeLoop_eq ready h.src (Nat.lt_succ_self _)
  obtain ⟨t, payload, pad, flushed, arena, snk, few, bits⟩ := exec_flush_of_wrBits
    (s := rewindSource (s.emitted bytes p)) (bits := input.flatMap (code s.blk))
    (u := (wrBits (input.flatMap (code s.blk)) (rewindSource (s.emitted bytes p))).beside x p' q) h.isLive h.wcnt
    h.clear rfl rfl
  refine ⟨pushRsp stOk 0#64 t, payload, pad, arena, ?_, few, bits,
    fun k => (codes _).trans (issueOk_of_exec rfl flushed (.inl rfl) _)⟩
  refine snk.trans (congrArg (· ++ payload) ?_)
  exact congrArg (· ++ bytes) h.snk

end

/-- R210, R215, R216: the whole sequence. -/
theorem ReadyFor.compress {input : List Byte} {s : State} (h : ReadyFor input s) (some : input ≠ [])
    (short : input.length < 2 ^ 64) :
    ∃ t payload pad, compress s = finish .success t ∧
      t.env.snk = header s.cfg.wordBigEndian input ++ payload ∧ pad < 8 ∧
      streamBits payload = input.flatMap (code t.blk) ++ List.replicate pad false := by
  obtain ⟨u, tree, counts⟩ := h.build some short
  obtain ⟨p, writesHeader⟩ := tree.writeHeader some
  obtain ⟨t, payload, pad, arena, snk, few, bits, writesPayload⟩ :=
    tree.writePayload (header s.cfg.wordBigEndian input) p
  refine ⟨t, payload, pad, ?_, snk, few, ?_⟩
  · rw [Machine.compress]
    refine (counts _).trans ((writesHeader _).trans ?_)
    rw [h.src]
    exact writesPayload _
  · rwa [show code t.blk = code u.blk from funext arena.code]

/-- The job's new sink, the given source and RESET make the block ready (R43, R222). -/
theorem readyFor_reset (input : List Byte) (s : State) :
    ReadyFor input (pushRsp stOk 0#64 (resetBlock (replaceSink (replaceSource input s)))) where
  isLive := rfl
  unbuilt := rfl
  freq a := by simp [readFreq, Block.reset]
  wcnt := rfl
  clear _ _ := BitVec.getLsbD_zero
  src := rfl
  spos := rfl
  snk := rfl

/-- Settles O55: RESET makes the block ready, the sequence succeeds from there and writes the header and the padded codes,
and `settle` passes a success on. -/
theorem compressedStreamLayout : Obligations.CompressedStreamLayout := by
  intro input s some short
  obtain ⟨t, payload, pad, succeeds, snk, few, bits⟩ := (readyFor_reset input s).compress some short
  refine ⟨t, payload, pad, ?_, snk, few, bits⟩
  rw [compressJob, issue_of_exec (t := resetBlock (replaceSink (replaceSource input s))) rfl rfl, succeeds]
  rfl

end Sys2Proof.Machine
end

section
/-! The gate on FAULT over every command word (R98, R243), and the four ways a command can end (R240, R246). -/

namespace Sys2Proof.Machine

/-! ### A faulted block -/

/-- R243: a faulted block refuses every word but RESET and RDSTAT, illegal words included. -/
theorem acceptCommand_refused {cw : CmdWord} {s : State} (faulted : s.blk.fault = true)
    (notReset : decode cw ≠ .ok .reset) (notRdstat : decode cw ≠ .ok .rdstat) :
    acceptCommand cw s = .next (pushRsp stFaulted 0#64 s) := by
  cases decoded : decode cw with
  | error e => rw [acceptCommand_illegal decoded, whenLive_faulted faulted]
  | ok i =>
    rw [acceptCommand_ok decoded]
    exact exec_faulted faulted (fun e => notReset (e ▸ decoded)) (fun e => notRdstat (e ▸ decoded))

/-- Settles O7: the gate refuses every other word, and RESET and RDSTAT have no gate. -/
theorem faultedBlockRefusesAllButResetAndRdstat : Obligations.FaultedBlockRefusesAllButResetAndRdstat := by
  refine fun cw s faulted => ⟨acceptCommand_refused faulted, fun isReset => ?_, fun isRdstat => ?_⟩
  · exact ⟨pushRsp stOk 0#64 (resetBlock s), acceptCommand_ok isReset s, rfl, rfl⟩
  · exact ⟨statusWord s.blk, acceptCommand_ok isRdstat s⟩

/-! ### What leaves FAULT as it is -/

theorem SameButTree.fault_eq {s t : State} (h : SameButTree s t) : t.blk.fault = s.blk.fault := by
  obtain ⟨_, _, _, _, _, _, rfl⟩ := h
  rfl

theorem wrBit_fault (b : Bool) (s : State) : (wrBit b s).blk.fault = s.blk.fault := by
  obtain ⟨_, _, _, e⟩ := wrBit_frame b s
  rw [e]

/-- Both walks of ENCODE, one after the other. -/
theorem emitCode_pushCode_fault {k : Nat} {n : NodeIdx} {s t : State} (walked : pushCode k n s = some t) (m : Nat) :
    (emitCode m t).blk.fault = s.blk.fault := by
  obtain ⟨_, _, rfl⟩ := pushCode_frame walked
  obtain ⟨_, _, _, _, e⟩ := emitCode_frame m _
  rw [e]

/-- Everything `RdBit()` can do, as a move of the reader: an end of data moves nothing. -/
theorem rdBit_moves (s : State) :
    rdBit s = (none, s) ∨ ∃ bit rbuf rcnt spos, rdBit s = (some bit, s.withReader rbuf rcnt spos) := by
  obtain ⟨_, read⟩ | ⟨_, _, read⟩ | ⟨_, _, read⟩ := rdBit_cases s
  · exact .inr ⟨_, _, _, _, read⟩
  · exact .inr ⟨_, _, _, _, read⟩
  · exact .inl read

/-! ### The ends of a command of a live block -/

/-- How a command ends that began at `s` with FAULT = 0 (R240): OK; EOD, with nothing changed; a fault. The last case is
the model's stuck state (log 9), which is no end of a command. -/
inductive LiveEnd (s : State) : Host.Outcome State Fault Refusal → Prop
  | ok {rd : BitVec 64} {t : State} (noFault : t.blk.fault = s.blk.fault) : LiveEnd s (.next (pushRsp stOk rd t))
  | eod {t : State} (sameBlk : t.blk = s.blk) (sameEnv : t.env = s.env) : LiveEnd s (.next (pushRsp stEod 0#64 t))
  | raised (c : Cause) (t : State) : LiveEnd s (raise c t)
  | stuck (e : Fault) : LiveEnd s (.fault e)

/-- The descent of DECODE from any node of its way. EOD is for a descent that has read no bit (R193 (b)), and DLEN, which
counts the bits read, does not come back to 0 because it has room for those still to be read. -/
theorem descend_liveEnd {s : State} (k : Nat) {t : State} (sameFault : t.blk.fault = s.blk.fault)
    (start : t.tmp.dlen = 0#8 → t.blk = s.blk ∧ t.env = s.env) (room : t.tmp.dlen.toNat + k ≤ 255) :
    LiveEnd s (descend k t) := by
  induction k generalizing t with
  | zero => exact .stuck .decodeTooDeep
  | succ k ih =>
    obtain read | ⟨bit, rbuf, rcnt, spos, read⟩ := rdBit_moves t
    · rw [descend_noBit read]
      split
      next first =>
        obtain ⟨sameBlk, sameEnv⟩ := start first
        exact .eod sameBlk sameEnv
      next => exact .raised _ _
    · rw [descend_bit (b := t.blk) rfl read]
      split
      next => exact .raised _ _
      next =>
        split
        next => exact .ok sameFault
        next =>
          have counted : (t.tmp.dlen + 1#8).toNat = t.tmp.dlen.toNat + 1 := by bv_omega
          refine ih (t := setCursor _ _ (t.withReader rbuf rcnt spos)) sameFault (fun zero => ?_) ?_
          · rw [setCursor_dlen] at zero
            rw [zero] at counted
            cases counted
          · rw [setCursor_dlen]
            omega

section

variable {s : State} (isLive : live s)
include isLive

theorem exec_rdword_liveEnd : LiveEnd s (exec .rdword s) := by
  obtain left | noByte := Nat.lt_or_ge s.env.spos s.env.src.length
  · obtain short | eight := Nat.lt_or_ge s.env.src.length (s.env.spos + 8)
    · rw [exec_rdword_short isLive left short]
      exact .raised _ _
    · rw [exec_rdword_live isLive eight]
      exact .ok rfl
  · rw [exec_rdword_exhausted isLive noByte]
    exact .eod rfl rfl

theorem exec_count_liveEnd (a : Sym) : LiveEnd s (exec (.count a) s) := by
  cases built : s.blk.tvalid with
  | true => rw [exec_count_frozen isLive a built]; exact .raised _ _
  | false =>
    by_cases full : readFreq s.blk a = BitVec.allOnes 64
    · rw [exec_count_overflow isLive built full]
      exact .raised _ _
    · rw [exec_count_adds isLive built full]
      exact .ok rfl

theorem exec_build_liveEnd : LiveEnd s (exec .build s) := by
  cases built : s.blk.tvalid with
  | true => rw [exec_build_frozen isLive built]; exact .raised _ _
  | false =>
    obtain ⟨_, e⟩ | ⟨u, same, _, _, e⟩ | ⟨u, _, _, _, e⟩ := exec_build_cases isLive built
    · rw [e]
      exact .ok ((buildStart_spec s).2.same.trans (sameButTree_setRoot nilIdx _)).fault_eq
    · rw [e]
      exact .ok (same.trans (sameButTree_rootPhase u)).fault_eq
    · rw [e]
      exact .raised _ _

theorem exec_encode_liveEnd (a : Sym) : LiveEnd s (exec (.encode a) s) := by
  change LiveEnd s (execEncode a s)
  rw [execEncode, whenLive_live isLive]
  split
  next => exact .raised _ _
  next =>
    split
    next => exact .raised _ _
    next =>
      cases walked : pushCode maxDepth (readLeaf s.blk a) (setClen 0#8 s) with
      | none => exact .stuck _
      | some t => exact .ok (emitCode_pushCode_fault walked _)

theorem exec_decode_liveEnd : LiveEnd s (exec .decode s) := by
  by_cases noTree : s.blk.tvalid = false ∨ s.blk.root = nilIdx
  · rw [exec_decode_noTree isLive noTree]
    exact .raised _ _
  · obtain ⟨built, hasRoot⟩ := not_or.1 noTree
    rw [exec_decode_live isLive (Bool.not_eq_false _ ▸ built) hasRoot]
    exact descend_liveEnd maxDepth (t := setCursor s.blk.root 0#8 s) rfl (fun _ => ⟨rfl, rfl⟩) le_rfl

/-- One case per row of R95. -/
theorem exec_liveEnd (i : Instr) : LiveEnd s (exec i s) := by
  cases i with
  | nop =>
    obtain ⟨answersOk, _⟩ := nopDoesNothing.2 s
    rw [answersOk isLive]; exact .ok rfl
  | reset => exact .ok isLive.symm
  | rdstat => exact .ok rfl
  | rdbit =>
    obtain read | ⟨_, _, _, _, read⟩ := rdBit_moves s
    · rw [exec_rdbit_none isLive read]; exact .eod rfl rfl
    · rw [exec_rdbit_some isLive read]; exact .ok rfl
  | rdbyte =>
    obtain ⟨_, read⟩ | ⟨_, read⟩ := srcNext_cases s
    · rw [exec_rdbyte_none isLive read]; exact .eod rfl rfl
    · rw [exec_rdbyte_some isLive read]; exact .ok rfl
  | rdword => exact exec_rdword_liveEnd isLive
  | wrbit a => rw [exec_wrbit_live isLive]; exact .ok (wrBit_fault _ s)
  | wrbyte d => rw [exec_wrbyte_live isLive]; exact .ok rfl
  | wrword d => rw [exec_wrword_live isLive]; exact .ok rfl
  | flush =>
    by_cases empty : s.blk.wcnt = 0#3
    · rw [exec_flush_empty isLive empty]; exact .ok rfl
    · rw [exec_flush_pending isLive empty]; exact .ok rfl
  | count a => exact exec_count_liveEnd isLive a
  | setfreq a d =>
    cases built : s.blk.tvalid with
    | true => rw [exec_setfreq_frozen isLive a d built]; exact .raised _ _
    | false => rw [exec_setfreq_writes isLive a d built]; exact .ok rfl
  | getfreq a => rw [exec_getfreq_live isLive]; exact .ok rfl
  | build => exact exec_build_liveEnd isLive
  | getnleaf => rw [exec_getnleaf_live isLive]; exact .ok rfl
  | gettotal =>
    by_cases noRoot : s.blk.root = nilIdx
    · rw [exec_gettotal_noRoot isLive noRoot]; exact .ok rfl
    · rw [exec_gettotal_root isLive noRoot]; exact .ok rfl
  | encode a => exact exec_encode_liveEnd isLive a
  | decode => exact exec_decode_liveEnd isLive

/-- An illegal word of a live block ends with ILLEGAL_CMD (R97). -/
theorem acceptCommand_liveEnd (cw : CmdWord) : LiveEnd s (acceptCommand cw s) := by
  cases decoded : decode cw with
  | ok i => rw [acceptCommand_ok decoded]; exact exec_liveEnd isLive i
  | error e => rw [acceptCommand_illegal decoded, whenLive_live isLive]; exact .raised _ _

end

/-! ### The four ends (R240) -/

/-- The four ends of a command that began at `s`, ended at `t` and answered ST = `st` (R240, R246). -/
def EndsWith (s t : State) (st : BitVec 8) : Prop :=
  (st = 0x00#8 ∧ (t.blk.fault = true → s.blk.fault = true)) ∨
  (st = 0x01#8 ∧ t.blk = s.blk ∧ t.env = s.env ∧ s.blk.fault = false) ∨
  (st = 0x02#8 ∧ t.blk = s.blk ∧ t.env = s.env ∧ s.blk.fault = true) ∨
  (0x10 ≤ st.toNat ∧ s.blk.fault = false ∧ t.blk.fault = true ∧ t.blk.cause = st)

/-- The codes of the causes begin at 0x10 (R94, R241). -/
theorem Cause.le_code (c : Cause) : 0x10 ≤ c.code.toNat := by cases c <;> decide

theorem LiveEnd.endsWith {s t : State} {o : Host.Outcome State Fault Refusal} (ends : LiveEnd s o) (isLive : live s)
    (h : o = .next t) : EndsWith s t (lastRsp t).st := by
  cases ends with
  | ok noFault =>
    cases h
    rw [lastRsp_pushRsp]
    exact .inl ⟨rfl, fun raised => noFault.symm.trans raised⟩
  | eod sameBlk sameEnv =>
    cases h
    rw [lastRsp_pushRsp]
    exact .inr (.inl ⟨rfl, sameBlk, sameEnv, isLive⟩)
  | raised c u =>
    cases h
    rw [lastRsp_pushRsp]
    exact .inr (.inr (.inr ⟨c.le_code, isLive, rfl, rfl⟩))
  | stuck e => cases h

theorem acceptCommand_faulted_endsWith {cw : CmdWord} {s t : State} (faulted : s.blk.fault = true)
    (h : acceptCommand cw s = .next t) : EndsWith s t (lastRsp t).st := by
  by_cases isReset : decode cw = .ok .reset
  · rw [acceptCommand_ok isReset] at h
    cases h
    rw [lastRsp_pushRsp]
    exact .inl ⟨rfl, fun _ => faulted⟩
  by_cases isRdstat : decode cw = .ok .rdstat
  · rw [acceptCommand_ok isRdstat] at h
    cases h
    rw [lastRsp_pushRsp]
    exact .inl ⟨rfl, fun _ => faulted⟩
  · rw [acceptCommand_refused faulted isReset isRdstat] at h
    cases h
    rw [lastRsp_pushRsp]
    exact .inr (.inr (.inl ⟨rfl, rfl, rfl, faulted⟩))

theorem acceptCommand_endsWith {cw : CmdWord} {s t : State} (h : acceptCommand cw s = .next t) :
    EndsWith s t (lastRsp t).st := by
  cases fault : s.blk.fault with
  | true => exact acceptCommand_faulted_endsWith fault h
  | false => exact (acceptCommand_liveEnd fault cw).endsWith fault h

/-- Settles O42: the one response (O41) is the last one. A live block ends OK, with EOD or with a fault, and a faulted one
OK or with FAULTED. -/
theorem commandEndsInOneOfFourWays : Obligations.CommandEndsInOneOfFourWays := by
  intro cw s t h
  obtain ⟨r, port, -⟩ := oneResponsePerCommand cw s t h
  have last : lastRsp t = r := by simp [lastRsp, port]
  exact ⟨r, congrArg Port.rsps port, last ▸ acceptCommand_endsWith h⟩

end Sys2Proof.Machine
end

section
/-! The codes as paths of bounded length, none the beginning of another (R176, R191). -/

namespace Sys2Proof.Machine

/-- Settles O32: bits that begin with both codes would belong to one symbol only. -/
theorem codesArePrefixFree : Obligations.CodesArePrefixFree := by
  rintro b a x tree hasA hasX other ⟨v, split⟩
  exact other (symbol_eq_of_code_append tree hasA hasX (split.trans (List.append_nil _).symm))

section

variable {b : Block} {a : Sym} (tree : TreeOk b) (has : readLeaf b a ≠ nilIdx)
include tree has

theorem code_length_pos : 1 ≤ (code b a).length := List.length_pos_iff.2 (code_ne_nil tree has)

/-- The only leaf hangs right under the root (R169). -/
theorem code_length_of_single (one : b.nleaf.toNat = 1) : (code b a).length = 1 := by
  have hasRoot := tree.root_ne_nil has
  have room := (reaches_code tree has).length_add_lt tree hasRoot
  have positive := code_length_pos tree has
  rw [tree.nnode_eq hasRoot, if_pos one] at room
  omega

/-- The last step of a code starts at an INTERNAL node, of which there are `NLEAF − 1`, and each step goes down. -/
theorem code_length_lt_nleaf (two : 2 ≤ b.nleaf.toNat) : (code b a).length < b.nleaf.toNat := by
  have hasRoot := tree.root_ne_nil has
  obtain ⟨w, bit, split⟩ := (List.eq_nil_or_concat' _).resolve_left (code_ne_nil tree has)
  have path := reaches_code tree has
  rw [split] at path
  obtain ⟨p, before, inner, -⟩ := path.last
  have room := before.length_add_lt tree hasRoot
  have above := inner.1
  rw [tree.nnode_eq hasRoot, if_neg (by omega)] at room
  rw [split, List.length_append, List.length_singleton]
  omega

end

/-- Settles O33: a code is a path, which goes down at every step, from INTERNAL nodes only. -/
theorem codeLengthIsBounded : Obligations.CodeLengthIsBounded := by
  intro b a tree has
  refine ⟨code_length_pos tree has, (reaches_code tree has).length_le tree (tree.root_ne_nil has),
    code_length_of_single tree has, fun two => ?_⟩
  have := code_length_lt_nleaf tree has two
  omega

end Sys2Proof.Machine
end

section
/-! Everything a command can do to the state, over the whole instruction set: what it may change, and how it ends (R25 to R37,
R41, R45, R240 to R246). -/

namespace Sys2Proof.Machine

/-! ### What a command may change -/

/-- A reader that has gone on from `s` keeps RCNT legal (R28) and moves SPOS onward within the source (R41). -/
structure ReadsOn (s : State) (rcnt : BitVec 4) (spos : ℕ) : Prop where
  legal : s.blk.rcnt.toNat ≤ 8 → rcnt.toNat ≤ 8
  onward : s.env.spos ≤ spos
  inSource : s.env.spos ≤ s.env.src.length → spos ≤ s.env.src.length

theorem ReadsOn.refl (s : State) : ReadsOn s s.blk.rcnt s.env.spos := ⟨id, le_rfl, id⟩

/-- What the command `i`, begun at `s`, has made of the block and the streams when it ends, but for FAULT and CAUSE, the
transient registers and the response. The second argument is the cause it raises then, if any. -/
inductive Effect (s : State) : Instr → Option Cause → State → Prop
  | unchanged (i : Instr) (c : Option Cause) : Effect s i c s
  | reset : Effect s .reset none (resetBlock s)
  | readBits {i : Instr} {c : Option Cause} (reader : i = .rdbit ∨ i = .decode) (rbuf : BitVec 8) {rcnt : BitVec 4}
      {spos : ℕ} (reads : ReadsOn s rcnt spos) : Effect s i c (s.withReader rbuf rcnt spos)
  | readBytes {i : Instr} {c : Option Cause} (reader : i = .rdbyte ∨ i = .rdword) {spos : ℕ}
      (reads : ReadsOn s s.blk.rcnt spos) : Effect s i c (s.withReader s.blk.rbuf s.blk.rcnt spos)
  | wroteBits {i : Instr} (writer : (∃ a, i = .wrbit a) ∨ ∃ a, i = .encode a) (bits : List Bool) :
      Effect s i none (wrBits bits s)
  | wroteBytes {i : Instr} (writer : (∃ d, i = .wrbyte d) ∨ ∃ d, i = .wrword d) (bytes : List Byte) :
      Effect s i none (snkPutAll bytes s)
  | flushedEmpty (empty : s.blk.wcnt = 0#3) : Effect s .flush none (snkFlush s)
  | flushedPending (pending : s.blk.wcnt ≠ 0#3) :
      Effect s .flush none (snkFlush (setWriter 0x00#8 0#3 (snkPut s.blk.wbuf s)))
  | counted {i : Instr} (writer : (∃ a, i = .count a) ∨ ∃ a d, i = .setfreq a d) (unbuilt : s.blk.tvalid = false)
      (a : Sym) (n : Count) : Effect s i none (setFreq a n s)
  | overflowed {t : State} (unbuilt : s.blk.tvalid = false) (same : SameButTree s t) (root : t.blk.root = s.blk.root) :
      Effect s .build (some .countOverflow) t
  | built {t : State} (unbuilt : s.blk.tvalid = false) (same : SameButTree s t) (tree : TreeOk (setTvalid t).blk) :
      Effect s .build none (setTvalid t)

/-! ### How it ends (R240) -/

/-- The command `i` is one of the four readers, at an exhausted source (R242). -/
def AtEnd (s : State) (i : Instr) : Prop :=
  s.env.src.length ≤ s.env.spos ∧
    ((i = .rdbit ∧ s.blk.rcnt = 0#4) ∨ i = .rdbyte ∨ i = .rdword ∨
      (i = .decode ∧ s.blk.tvalid = true ∧ s.blk.root ≠ nilIdx ∧ s.blk.rcnt = 0#4))

/-- The four readers of the source. -/
def readsSource : Instr → Bool
  | .rdbit | .rdbyte | .rdword | .decode => true
  | _ => false

/-- How the command `i` begun at `s` ends: OK, EOD, a fault, or the refusal of a faulted block. The last case is the stuck
state of the model (log 9). -/
inductive Ends (s : State) (i : Instr) : Host.Outcome State Fault Refusal → Prop
  | ok {u : State} (rd : BitVec 64) (x : Transient) (notEnd : ¬ AtEnd s i) (effect : Effect s i none u) :
      Ends s i (.next (pushRsp stOk rd (u.withTmp x)))
  | eod (x : Transient) (isLive : live s) (atEnd : AtEnd s i) : Ends s i (.next (pushRsp stEod 0#64 (s.withTmp x)))
  | raised (c : Cause) {u : State} (x : Transient) (isLive : live s) (notEnd : ¬ AtEnd s i)
      (effect : Effect s i (some c) u) : Ends s i (.next (pushRsp c.code 0#64 ((enterFault c u).withTmp x)))
  | refused (faulted : s.blk.fault = true) (notReset : i ≠ .reset) : Ends s i (.next (pushRsp stFaulted 0#64 s))
  | stuck (e : Fault) (notEnd : ¬ AtEnd s i) (codec : (∃ a, i = .encode a) ∨ i = .decode) : Ends s i (.fault e)

section

variable {s : State} {i : Instr}

/-- A command that is none of the four readers never meets the end of data. -/
theorem not_atEnd_of_notReader (notReader : readsSource i = false) : ¬ AtEnd s i := by
  rintro ⟨_, ⟨rfl, _⟩ | rfl | rfl | ⟨rfl, _⟩⟩ <;> cases notReader

theorem not_atEnd_of_left (left : s.env.spos < s.env.src.length) : ¬ AtEnd s i := fun atEnd =>
  absurd atEnd.1 (Nat.not_le_of_lt left)

/-- OK with nothing changed. -/
theorem Ends.answered {rd : BitVec 64} (notEnd : ¬ AtEnd s i) : Ends s i (.next (pushRsp stOk rd s)) :=
  .ok rd s.tmp notEnd (.unchanged i none)

/-- A fault raised before anything else is changed. -/
theorem Ends.faults (c : Cause) (isLive : live s) (notEnd : ¬ AtEnd s i) : Ends s i (raise c s) :=
  .raised c s.tmp isLive notEnd (.unchanged i (some c))

end

/-! ### The reader -/

/-- `RdBit()` finds the end of data, or goes on by one bit (R130). -/
theorem rdBit_readsOn (s : State) :
    (s.blk.rcnt = 0#4 ∧ s.env.src.length ≤ s.env.spos ∧ rdBit s = (none, s)) ∨
    (¬ (s.blk.rcnt = 0#4 ∧ s.env.src.length ≤ s.env.spos) ∧ ∃ bit rbuf rcnt spos,
      rdBit s = (some bit, s.withReader rbuf rcnt spos) ∧ ReadsOn s rcnt spos) := by
  obtain ⟨buffered, read⟩ | ⟨left, empty, read⟩ | ⟨empty, noByte, read⟩ := rdBit_cases s
  · refine .inr ⟨fun h => buffered h.1, _, _, _, _, read, fun legal => ?_, le_rfl, id⟩
    have positive : s.blk.rcnt.toNat ≠ 0 := fun zero => buffered (BitVec.eq_of_toNat_eq zero)
    bv_omega
  · exact .inr ⟨fun h => absurd left (Nat.not_lt_of_le h.2), _, _, _, _, read, fun _ => by decide, Nat.le_succ _,
      fun _ => left⟩
  · exact .inl ⟨empty, noByte, read⟩

/-- The descent of DECODE at `t`, on its way from `s`. EOD is for a descent that has read no bit, and DLEN, which counts the
bits read, does not come back to 0 because it has room for those still to be read. -/
theorem descend_ends_from {s : State} (isLive : live s) (built : s.blk.tvalid = true) (hasRoot : s.blk.root ≠ nilIdx)
    (k : ℕ) {rbuf : BitVec 8} {rcnt : BitVec 4} {spos : ℕ} {x : Transient} (reads : ReadsOn s rcnt spos)
    (first : x.dlen = 0#8 → rcnt = s.blk.rcnt ∧ spos = s.env.spos ∧ rbuf = s.blk.rbuf)
    (later : x.dlen ≠ 0#8 → ¬ AtEnd s .decode) (room : x.dlen.toNat + k = 255) :
    Ends s .decode (descend k ((s.withReader rbuf rcnt spos).withTmp x)) := by
  induction k generalizing rbuf rcnt spos x with
  | zero =>
    refine .stuck .decodeTooDeep (later fun none => ?_) (.inr rfl)
    rw [none] at room
    cases room
  | succ k ih =>
    obtain ⟨empty, noByte, read⟩ | ⟨some, bit, rbuf', rcnt', spos', read, reads'⟩ :=
      rdBit_readsOn ((s.withReader rbuf rcnt spos).withTmp x)
    · rw [descend_noBit read]
      split
      next none =>
        obtain ⟨rfl, rfl, rfl⟩ := first none
        exact .eod x isLive ⟨noByte, .inr (.inr (.inr ⟨rfl, built, hasRoot, empty⟩))⟩
      next some =>
        exact .raised (u := s.withReader rbuf rcnt spos) _ x isLive (later some) (.readBits (.inr rfl) rbuf reads)
    · have reads'' : ReadsOn s rcnt' spos' :=
        ⟨fun legal => reads'.legal (reads.legal legal), reads.onward.trans reads'.onward,
          fun legal => reads'.inSource (reads.inSource legal)⟩
      have notEnd : ¬ AtEnd s .decode := by
        by_cases none : x.dlen = 0#8
        · obtain ⟨rfl, rfl, -⟩ := first none
          rintro ⟨noByte, isRdbit | isRdbyte | isRdword | ⟨_, _, _, empty⟩⟩
          · cases isRdbit.1
          · cases isRdbyte
          · cases isRdword
          · exact some ⟨empty, noByte⟩
        · exact later none
      have counted : (x.dlen + 1#8).toNat = x.dlen.toNat + 1 := by bv_omega
      have effect (c : Option Cause) : Effect s .decode c (s.withReader rbuf' rcnt' spos') :=
        .readBits (.inr rfl) rbuf' reads''
      rw [descend_bit (s := (s.withReader rbuf rcnt spos).withTmp x) (b := s.blk) rfl read]
      split
      next => exact .raised (u := s.withReader rbuf' rcnt' spos') _ x isLive notEnd (effect _)
      next =>
        split
        next => exact .ok (u := s.withReader rbuf' rcnt' spos') _ _ notEnd (effect _)
        next =>
          refine ih (x := { x with cur := _, dlen := x.dlen + 1#8 }) reads'' (fun zero => ?_) (fun _ => notEnd) ?_
          · rw [show x.dlen + 1#8 = 0#8 from zero] at counted
            cases counted
          · change (x.dlen + 1#8).toNat + k = 255
            omega

/-! ### The commands of a live block -/

/-- The emission of ENCODE, whatever is on the stack, is `WrBit` of some bits. -/
theorem emitCode_eq_wrBits (k : ℕ) (s : State) : ∃ bits x, emitCode k s = (wrBits bits s).withTmp x := by
  induction k generalizing s with
  | zero => exact ⟨[], s.tmp, rfl⟩
  | succ k ih =>
    generalize hs : setClen (s.tmp.clen - 1#8) s = s1
    obtain ⟨bits, x, rest⟩ := ih (wrBit (readCstk s1 s1.tmp.clen) s1)
    refine ⟨readCstk s1 s1.tmp.clen :: bits, x, ?_⟩
    have moved : s1 = s.withTmp s1.tmp := by rw [← hs]; rfl
    rw [emitCode]
    simp only [hs]
    rw [rest, wrBits_cons, congrArg (wrBit _) moved, wrBit_withTmp, wrBits_withTmp]
    rfl

section

variable {s : State} (isLive : live s)
include isLive

theorem exec_rdword_ends : Ends s .rdword (exec .rdword s) := by
  obtain left | noByte := Nat.lt_or_ge s.env.spos s.env.src.length
  · obtain short | eight := Nat.lt_or_ge s.env.src.length (s.env.spos + 8)
    · rw [exec_rdword_short isLive left short]
      exact .raised _ s.tmp isLive (not_atEnd_of_left left) (.readBytes (.inr rfl) ⟨id, left.le, fun _ => le_rfl⟩)
    · rw [exec_rdword_live isLive eight]
      exact .ok _ s.tmp (not_atEnd_of_left left) (.readBytes (.inr rfl) ⟨id, by omega, fun _ => eight⟩)
  · rw [exec_rdword_exhausted isLive noByte]
    exact .eod s.tmp isLive ⟨noByte, .inr (.inr (.inl rfl))⟩

theorem exec_rdbit_ends : Ends s .rdbit (exec .rdbit s) := by
  obtain ⟨empty, noByte, read⟩ | ⟨some, bit, rbuf, rcnt, spos, read, reads⟩ := rdBit_readsOn s
  · rw [exec_rdbit_none isLive read]
    exact .eod s.tmp isLive ⟨noByte, .inl ⟨rfl, empty⟩⟩
  · rw [exec_rdbit_some isLive read]
    refine .ok _ s.tmp ?_ (.readBits (.inl rfl) rbuf reads)
    rintro ⟨noByte, ⟨_, empty⟩ | isRdbyte | isRdword | ⟨isDecode, _⟩⟩
    · exact some ⟨empty, noByte⟩
    · cases isRdbyte
    · cases isRdword
    · cases isDecode

theorem exec_rdbyte_ends : Ends s .rdbyte (exec .rdbyte s) := by
  obtain ⟨noByte, read⟩ | ⟨left, read⟩ := srcNext_cases s
  · rw [exec_rdbyte_none isLive read]
    exact .eod s.tmp isLive ⟨noByte, .inr (.inl rfl)⟩
  · rw [exec_rdbyte_some isLive read]
    exact .ok _ s.tmp (not_atEnd_of_left left) (.readBytes (.inl rfl) ⟨id, Nat.le_succ _, fun _ => left⟩)

theorem exec_count_ends (a : Sym) : Ends s (.count a) (exec (.count a) s) := by
  have notEnd : ¬ AtEnd s (.count a) := not_atEnd_of_notReader rfl
  cases built : s.blk.tvalid with
  | true =>
    rw [exec_count_frozen isLive a built]
    exact .faults _ isLive notEnd
  | false =>
    by_cases full : readFreq s.blk a = BitVec.allOnes 64
    · rw [exec_count_overflow isLive built full]
      exact .faults _ isLive notEnd
    · rw [exec_count_adds isLive built full]
      exact .ok _ s.tmp notEnd (.counted (.inl ⟨a, rfl⟩) built a _)

theorem exec_setfreq_ends (a : Sym) (d : Count) : Ends s (.setfreq a d) (exec (.setfreq a d) s) := by
  have notEnd : ¬ AtEnd s (.setfreq a d) := not_atEnd_of_notReader rfl
  cases built : s.blk.tvalid with
  | true =>
    rw [exec_setfreq_frozen isLive a d built]
    exact .faults _ isLive notEnd
  | false =>
    rw [exec_setfreq_writes isLive a d built]
    exact .ok _ s.tmp notEnd (.counted (.inr ⟨a, d, rfl⟩) built a d)

theorem exec_encode_ends (a : Sym) : Ends s (.encode a) (exec (.encode a) s) := by
  have notEnd : ¬ AtEnd s (.encode a) := not_atEnd_of_notReader rfl
  change Ends s (.encode a) (execEncode a s)
  rw [execEncode, whenLive_live isLive]
  split
  next => exact .faults _ isLive notEnd
  next =>
    split
    next => exact .faults _ isLive notEnd
    next =>
      cases walked : pushCode maxDepth (readLeaf s.blk a) (setClen 0#8 s) with
      | none => exact .stuck _ notEnd (.inl ⟨a, rfl⟩)
      | some t =>
        obtain ⟨stk, len, rfl⟩ := pushCode_frame walked
        obtain ⟨bits, x, emitted⟩ := emitCode_eq_wrBits len.toNat (s.withTmp { s.tmp with cstk := stk, clen := len })
        rw [wrBits_withTmp] at emitted
        change Ends s (.encode a) (.next (pushRsp stOk (rdOfByte len) (emitCode len.toNat
          (s.withTmp { s.tmp with cstk := stk, clen := len }))))
        rw [emitted]
        exact .ok (u := wrBits bits s) _ x notEnd (.wroteBits (.inr ⟨a, rfl⟩) bits)

theorem exec_decode_ends_live : Ends s .decode (exec .decode s) := by
  by_cases noTree : s.blk.tvalid = false ∨ s.blk.root = nilIdx
  · rw [exec_decode_noTree isLive noTree]
    refine .faults _ isLive ?_
    rintro ⟨_, isRdbit | isRdbyte | isRdword | ⟨_, built, hasRoot, _⟩⟩
    · cases isRdbit.1
    · cases isRdbyte
    · cases isRdword
    · exact noTree.elim (fun unbuilt => absurd (unbuilt.symm.trans built) (by decide)) hasRoot
  · obtain ⟨built, hasRoot⟩ := not_or.1 noTree
    rw [Bool.not_eq_false] at built
    rw [exec_decode_live isLive built hasRoot]
    exact descend_ends_from isLive built hasRoot maxDepth (x := { s.tmp with cur := s.blk.root, dlen := 0#8 })
      (.refl s) (fun _ => ⟨rfl, rfl, rfl⟩) (fun some => absurd rfl some) rfl

end

/-! ### BUILD -/

/-- R172 of the tree without a node. -/
theorem LeafTable.treeOk_of_empty {b : Block} (leaves : LeafTable b) (nleaf : b.nleaf = 0#9) (nnode : b.nnode = 0#9)
    (root : b.root = nilIdx) : TreeOk b := by
  have noLeaf : ∀ i : NodeIdx, ¬ i.toNat < b.nleaf.toNat := fun i => by rw [nleaf]; exact Nat.not_lt_zero _
  have noNode : ∀ i : NodeIdx, ¬ i.toNat < b.nnode.toNat := fun i => by rw [nnode]; exact Nat.not_lt_zero _
  constructor
  case leafCount => exact leaves.count
  case nodeCount => rw [nleaf, nnode]; rfl
  case rootIs => rw [nleaf, root]; rfl
  case leaves => exact leaves.leaves
  case leafIndex => exact leaves.leafIndex
  case inner => exact fun i _ node => absurd node (noNode i)
  case sums => exact fun i _ node => absurd node (noNode i)
  case owners => exact fun p _ _ node => absurd node (noNode p)
  case rootInternal => exact fun hasRoot => absurd root hasRoot
  case parents => exact fun i node => absurd node (noNode i)

/-- A BUILD whose leaf phase finds a leaf has a table with a positive count. -/
theorem exists_positive_of_leaf {s : State} (leaf : (buildStart s).blk.nleaf ≠ 0#9) :
    ∃ a : Sym, readFreq s.blk a ≠ 0#64 := by
  obtain ⟨all, start⟩ := buildStart_spec s
  have some : 0 < (buildStart s).blk.nnode.toNat := by
    rw [← all]
    exact Nat.pos_of_ne_zero fun none => leaf (BitVec.eq_of_toNat_eq none)
  obtain ⟨a, _, positive, _⟩ := start.owned 0#9 some
  exact ⟨a, positive⟩

/-- Every BUILD of a live block whose table is not frozen completes with the tree of R172, or overflows (R170, R171). -/
theorem exec_build_outcome {s : State} (isLive : live s) (unbuilt : s.blk.tvalid = false) :
    (∃ u, SameButTree s u ∧ TreeOk (setTvalid u).blk ∧ exec .build s = .next (pushRsp stOk 0#64 (setTvalid u))) ∨
    (∃ u, SameButTree s u ∧ u.blk.root = s.blk.root ∧ exec .build s = raise .countOverflow u) := by
  by_cases noLeaf : (buildStart s).blk.nleaf = 0#9
  · obtain ⟨all, start⟩ := buildStart_spec s
    have leaves := (start.leafTable all).of_same (b' := (setTvalid (setRoot nilIdx (buildStart s))).blk) rfl rfl
      (fun _ => rfl) fun _ _ => ⟨rfl, rfl, rfl, rfl, rfl⟩
    exact .inl ⟨setRoot nilIdx (buildStart s), start.same.trans (sameButTree_setRoot _ _),
      leaves.treeOk_of_empty noLeaf (all.symm.trans noLeaf) rfl,
      exec_build_noLeaf isLive unbuilt noLeaf⟩
  obtain ⟨none, _⟩ | ⟨u, same, forest, one, _⟩ | ⟨u, same, root, _, e⟩ := exec_build_cases isLive unbuilt
  · exact absurd none noLeaf
  · obtain ⟨a, positive⟩ := exists_positive_of_leaf noLeaf
    have fits := forest.totalFreq_lt one
    rw [same.totalFreq] at fits
    exact .inl (exec_build_treeOk isLive unbuilt positive fits)
  · exact .inr ⟨u, same, root, e⟩

theorem exec_build_ends {s : State} (isLive : live s) : Ends s .build (exec .build s) := by
  have notEnd : ¬ AtEnd s .build := not_atEnd_of_notReader rfl
  cases built : s.blk.tvalid with
  | true =>
    rw [exec_build_frozen isLive built]
    exact .faults _ isLive notEnd
  | false =>
    obtain ⟨u, same, tree, e⟩ | ⟨u, same, root, e⟩ := exec_build_outcome isLive built
    · rw [e]
      exact .ok _ u.tmp notEnd (.built built same tree)
    · rw [e]
      exact .raised _ u.tmp isLive notEnd (.overflowed built same root)

/-! ### The whole instruction set -/

/-- One case per row of R95. -/
theorem exec_ends_of_live {s : State} (isLive : live s) (i : Instr) : Ends s i (exec i s) := by
  cases i with
  | nop =>
    obtain ⟨answersOk, _⟩ := nopDoesNothing.2 s
    rw [answersOk isLive]
    exact .answered (not_atEnd_of_notReader rfl)
  | reset => exact .ok 0#64 (resetBlock s).tmp (not_atEnd_of_notReader rfl) .reset
  | rdstat => exact .answered (not_atEnd_of_notReader rfl)
  | rdbit => exact exec_rdbit_ends isLive
  | rdbyte => exact exec_rdbyte_ends isLive
  | rdword => exact exec_rdword_ends isLive
  | wrbit a =>
    rw [exec_wrbit_live isLive]
    exact .ok _ _ (not_atEnd_of_notReader rfl) (.wroteBits (.inl ⟨a, rfl⟩) [a.getLsbD 0])
  | wrbyte d =>
    rw [exec_wrbyte_live isLive]
    exact .ok _ _ (not_atEnd_of_notReader rfl) (.wroteBytes (.inl ⟨d, rfl⟩) [byteOperand d])
  | wrword d =>
    rw [exec_wrword_live isLive, ← snkPutAll_eq]
    exact .ok _ _ (not_atEnd_of_notReader rfl) (.wroteBytes (.inr ⟨d, rfl⟩) _)
  | flush =>
    by_cases empty : s.blk.wcnt = 0#3
    · rw [exec_flush_empty isLive empty]
      exact .ok _ s.tmp (not_atEnd_of_notReader rfl) (.flushedEmpty empty)
    · rw [exec_flush_pending isLive empty]
      exact .ok _ s.tmp (not_atEnd_of_notReader rfl) (.flushedPending empty)
  | count a => exact exec_count_ends isLive a
  | setfreq a d => exact exec_setfreq_ends isLive a d
  | getfreq a =>
    rw [exec_getfreq_live isLive]
    exact .answered (not_atEnd_of_notReader rfl)
  | build => exact exec_build_ends isLive
  | getnleaf =>
    rw [exec_getnleaf_live isLive]
    exact .answered (not_atEnd_of_notReader rfl)
  | gettotal =>
    by_cases noRoot : s.blk.root = nilIdx
    · rw [exec_gettotal_noRoot isLive noRoot]
      exact .answered (not_atEnd_of_notReader rfl)
    · rw [exec_gettotal_root isLive noRoot]
      exact .answered (not_atEnd_of_notReader rfl)
  | encode a => exact exec_encode_ends isLive a
  | decode => exact exec_decode_ends_live isLive

/-- Everything a command can do. -/
theorem exec_ends (i : Instr) (s : State) : Ends s i (exec i s) := by
  cases fault : s.blk.fault with
  | false => exact exec_ends_of_live fault i
  | true =>
    by_cases isReset : i = .reset
    · subst isReset
      exact .ok 0#64 (resetBlock s).tmp (not_atEnd_of_notReader rfl) .reset
    by_cases isRdstat : i = .rdstat
    · subst isRdstat
      exact .answered (not_atEnd_of_notReader rfl)
    · rw [exec_faulted fault isReset isRdstat]
      exact .refused fault isReset

/-- A word that is illegal ends as a NOP that may raise ILLEGAL_CMD. -/
theorem acceptCommand_ends (cw : CmdWord) (s : State) :
    ∃ i, (decode cw = .ok .reset ↔ i = .reset) ∧ Ends s i (acceptCommand cw s) := by
  cases decoded : decode cw with
  | ok i => exact ⟨i, by simp, acceptCommand_ok decoded s ▸ exec_ends i s⟩
  | error e =>
    refine ⟨.nop, by simp, ?_⟩
    rw [acceptCommand_illegal decoded]
    cases fault : s.blk.fault with
    | false =>
      rw [whenLive_live fault]
      exact .faults _ fault (not_atEnd_of_notReader rfl)
    | true =>
      rw [whenLive_faulted fault]
      exact .refused fault (by simp)

end Sys2Proof.Machine
end

section
/-! What every command leaves as it is: the registers and tables it does not write, a tree that stands, the source, and what
is in the sink (R25 to R37, R41, R61, R63, R73, R242, R270). -/

namespace Sys2Proof.Machine

/-! ### The frame of each command -/

/-- Each register, table and stream is changed only by the commands its rule names (R25 to R37, R41, R45). -/
def KeepsOthers (i : Instr) (s t : State) : Prop :=
  (i ≠ .rdbit → i ≠ .decode → i ≠ .reset → t.blk.rbuf = s.blk.rbuf ∧ t.blk.rcnt = s.blk.rcnt) ∧
  ((∀ a, i ≠ .wrbit a) → (∀ a, i ≠ .encode a) → i ≠ .flush → i ≠ .reset →
    t.blk.wbuf = s.blk.wbuf ∧ t.blk.wcnt = s.blk.wcnt) ∧
  ((∀ a, i ≠ .count a) → (∀ a d, i ≠ .setfreq a d) → i ≠ .reset → t.blk.freq = s.blk.freq) ∧
  (i ≠ .build → i ≠ .reset → t.blk.tvalid = s.blk.tvalid ∧ t.blk.nnode = s.blk.nnode ∧
    t.blk.nleaf = s.blk.nleaf ∧ t.blk.root = s.blk.root ∧ t.blk.leaf = s.blk.leaf) ∧
  (i ≠ .build → t.blk.node = s.blk.node) ∧
  (i ≠ .rdbit → i ≠ .rdbyte → i ≠ .rdword → i ≠ .decode → t.env.spos = s.env.spos) ∧
  ((∀ a, i ≠ .wrbit a) → (∀ d, i ≠ .wrbyte d) → (∀ d, i ≠ .wrword d) → (∀ a, i ≠ .encode a) → i ≠ .flush →
    t.env.snk = s.env.snk) ∧
  (i ≠ .flush → t.env.snkfl = s.env.snkfl) ∧
  t.env.src = s.env.src ∧ t.cfg = s.cfg ∧ t.port.inputs = s.port.inputs

section

variable {s u : State} {i : Instr} {c : Option Cause}

theorem Effect.keepsOthers (effect : Effect s i c u) : KeepsOthers i s u := by
  unfold KeepsOthers
  cases effect with
  | unchanged => simp
  | reset => simp
  | readBits reader => obtain rfl | rfl := reader <;> simp [State.withReader]
  | readBytes reader => obtain rfl | rfl := reader <;> simp [State.withReader]
  | wroteBits writer bits =>
    obtain ⟨_, _, _, e⟩ := wrBits_frame bits s
    rw [e]
    obtain ⟨a, rfl⟩ | ⟨a, rfl⟩ := writer <;> simp
  | wroteBytes writer bytes =>
    rw [snkPutAll_eq]
    obtain ⟨d, rfl⟩ | ⟨d, rfl⟩ := writer <;> simp
  | flushedEmpty => simp
  | flushedPending => simp
  | counted writer _ a n => obtain ⟨a, rfl⟩ | ⟨a, d, rfl⟩ := writer <;> simp
  | overflowed _ same _ =>
    obtain ⟨_, _, _, _, _, _, rfl⟩ := same
    simp
  | built _ same _ =>
    obtain ⟨_, _, _, _, _, _, rfl⟩ := same
    simp

/-- A command writes its response on the port, and nothing before that. -/
theorem Effect.port (effect : Effect s i c u) : u.port = s.port := by
  cases effect with
  | wroteBits _ bits =>
    obtain ⟨_, _, _, e⟩ := wrBits_frame bits s
    rw [e]
  | wroteBytes _ bytes => rw [snkPutAll_eq]
  | overflowed _ same _ =>
    obtain ⟨_, _, _, _, _, _, rfl⟩ := same
    rfl
  | built _ same _ =>
    obtain ⟨_, _, _, _, _, _, rfl⟩ := same
    rfl
  | _ => rfl

/-- While TVALID = 1, no command but RESET writes the table or the tree (R25, R31, R170). -/
theorem Effect.frozen (effect : Effect s i c u) (built : s.blk.tvalid = true) (notReset : i ≠ .reset) :
    u.blk.tvalid = true ∧ SameArena s.blk u.blk ∧ u.blk.root = s.blk.root := by
  have contra {P : Prop} (unbuilt : s.blk.tvalid = false) : P := by
    rw [unbuilt] at built
    cases built
  cases effect with
  | reset => exact absurd rfl notReset
  | wroteBits _ bits =>
    obtain ⟨_, _, _, e⟩ := wrBits_frame bits s
    rw [e]
    exact ⟨built, ⟨rfl, rfl, rfl, rfl, rfl⟩, rfl⟩
  | wroteBytes _ bytes =>
    rw [snkPutAll_eq]
    exact ⟨built, ⟨rfl, rfl, rfl, rfl, rfl⟩, rfl⟩
  | counted _ unbuilt => exact contra unbuilt
  | overflowed unbuilt => exact contra unbuilt
  | built unbuilt => exact contra unbuilt
  | _ => exact ⟨built, ⟨rfl, rfl, rfl, rfl, rfl⟩, rfl⟩

end

/-- The streams of an environment against those of an earlier one (R61, R63, R73, R75). -/
structure StreamsGrow (e e' : Env) : Prop where
  src : e'.src = e.src
  onward : e.spos ≤ e'.spos
  inSource : e'.spos ≤ e'.src.length
  snk : e.snk <+: e'.snk
  strobes : e.snkfl ≤ e'.snkfl

theorem Effect.streamsGrow {s u : State} {i : Instr} {c : Option Cause} (effect : Effect s i c u)
    (legal : s.env.spos ≤ s.env.src.length) : StreamsGrow s.env u.env := by
  cases effect with
  | readBits _ _ reads => exact ⟨rfl, reads.onward, reads.inSource legal, List.prefix_rfl, le_rfl⟩
  | readBytes _ reads => exact ⟨rfl, reads.onward, reads.inSource legal, List.prefix_rfl, le_rfl⟩
  | wroteBits _ bits =>
    have grown := snk_prefix_wrBits bits s
    obtain ⟨_, _, _, e⟩ := wrBits_frame bits s
    rw [e] at grown ⊢
    exact ⟨rfl, le_rfl, legal, grown, le_rfl⟩
  | wroteBytes _ bytes =>
    rw [snkPutAll_eq]
    exact ⟨rfl, le_rfl, legal, List.prefix_append _ _, le_rfl⟩
  | flushedEmpty => exact ⟨rfl, le_rfl, legal, List.prefix_rfl, Nat.le_succ _⟩
  | flushedPending => exact ⟨rfl, le_rfl, legal, List.prefix_append _ _, Nat.le_succ _⟩
  | overflowed _ same _ =>
    obtain ⟨_, _, _, _, _, _, rfl⟩ := same
    exact ⟨rfl, le_rfl, legal, List.prefix_rfl, le_rfl⟩
  | built _ same _ =>
    obtain ⟨_, _, _, _, _, _, rfl⟩ := same
    exact ⟨rfl, le_rfl, legal, List.prefix_rfl, le_rfl⟩
  | _ => exact ⟨rfl, le_rfl, legal, List.prefix_rfl, le_rfl⟩

/-! ### The commands as they end -/

section

variable {s t : State} {i : Instr}

/-- Settles O46: each effect of a command is within its frame, and its end adds FAULT, CAUSE and a response. -/
theorem eachRegisterHasItsWriters : Obligations.EachRegisterHasItsWriters := by
  intro i s t h
  change KeepsOthers i s t
  have ends := exec_ends i s
  rw [h] at ends
  cases ends with
  | ok _ _ _ effect => exact effect.keepsOthers
  | raised _ _ _ _ effect => exact effect.keepsOthers
  | eod => exact (Effect.unchanged i none).keepsOthers
  | refused => exact (Effect.unchanged i none).keepsOthers

theorem Ends.frozen (ends : Ends s i (.next t)) (built : s.blk.tvalid = true) (notReset : i ≠ .reset) :
    t.blk.tvalid = true ∧ SameArena s.blk t.blk ∧ t.blk.root = s.blk.root := by
  cases ends with
  | ok _ _ _ effect => exact effect.frozen built notReset
  | raised _ _ _ _ effect =>
    obtain ⟨stillBuilt, arena, root⟩ := effect.frozen built notReset
    exact ⟨stillBuilt, ⟨arena.freq, arena.node, arena.nnode, arena.nleaf, arena.leaf⟩, root⟩
  | eod => exact ⟨built, ⟨rfl, rfl, rfl, rfl, rfl⟩, rfl⟩
  | refused => exact ⟨built, ⟨rfl, rfl, rfl, rfl, rfl⟩, rfl⟩

/-- Settles O45: no effect but that of RESET, which no other word has, writes the table or the tree. -/
theorem tableAndTreeAreFrozenAfterBuild : Obligations.TableAndTreeAreFrozenAfterBuild := by
  intro cw s t built notReset h
  obtain ⟨i, isReset, ends⟩ := acceptCommand_ends cw s
  rw [h] at ends
  obtain ⟨stillBuilt, arena, root⟩ := ends.frozen built (mt isReset.2 notReset)
  exact ⟨stillBuilt, arena.freq, arena.node, arena.nnode, arena.nleaf, root, arena.leaf⟩

/-- Settles O44: a faulted block is left as it is by every word but RESET. -/
theorem faultAndCauseHoldUntilReset : Obligations.FaultAndCauseHoldUntilReset := by
  refine fun cw s t faulted h => ⟨fun notReset => ?_, fun isReset => ?_⟩
  · rw [acceptCommand_faulted_blk faulted notReset h]
    exact ⟨faulted, rfl⟩
  · rw [acceptCommand_ok isReset] at h
    cases h
    exact ⟨rfl, rfl⟩

theorem acceptCommand_streamsGrow {cw : CmdWord} (legal : s.env.spos ≤ s.env.src.length)
    (h : acceptCommand cw s = .next t) : StreamsGrow s.env t.env := by
  obtain ⟨i, -, ends⟩ := acceptCommand_ends cw s
  rw [h] at ends
  cases ends with
  | ok _ _ _ effect => exact effect.streamsGrow legal
  | raised _ _ _ _ effect => exact effect.streamsGrow legal
  | eod => exact ⟨rfl, le_rfl, legal, List.prefix_rfl, le_rfl⟩
  | refused => exact ⟨rfl, le_rfl, legal, List.prefix_rfl, le_rfl⟩

/-- Settles O47: what each effect does to the streams. -/
theorem sinkGrowsAndSourceAdvances : Obligations.SinkGrowsAndSourceAdvances := by
  intro cw s t legal h
  obtain ⟨src, onward, inSource, snk, strobes⟩ := acceptCommand_streamsGrow legal h
  exact ⟨src, onward, inSource, snk, strobes⟩

/-! ### A pin reset during a command (R270) -/

/-- An abandoned command leaves the streams between those it began with and those it would have left. -/
theorem StreamsGrow.abandoned {e e' : Env} (grow : StreamsGrow e e') (made : ℕ) :
    StreamsGrow e (abandonedEnv e e' made) ∧ StreamsGrow (abandonedEnv e e' made) e' := by
  obtain ⟨src, onward, inSource, snk, strobes⟩ := grow
  have within : e.spos + min made (e'.spos - e.spos) ≤ e'.spos := by omega
  have legal : e'.spos ≤ e.src.length := src ▸ inSource
  obtain ⟨more, split⟩ := snk
  have taken (n : ℕ) : e.snk <+: e'.snk.take (e.snk.length + n) := by
    rw [← split, List.take_length_add_append]
    exact List.prefix_append _ _
  exact ⟨⟨rfl, Nat.le_add_right _ _, within.trans legal, taken _, Nat.le_add_right _ _⟩,
    ⟨src, within, inSource, List.take_prefix _ _, by simp only [abandonedEnv]; omega⟩⟩

/-- Settles O49: the step is the reset of the block with the streams of an abandoned command. -/
theorem pinResetAbandonsTheCommand : Obligations.PinResetAbandonsTheCommand := by
  intro s u cw made rest pending legal h
  have grow : StreamsGrow s.env u.env :=
    acceptCommand_streamsGrow (s := { s with port.inputs := rest }) legal h
  obtain ⟨before, after⟩ := grow.abandoned made
  refine ⟨{ resetBlock { s with port.inputs := rest } with env := abandonedEnv s.env u.env made }, ?_, rfl, rfl,
    before.src, before.onward, after.onward, before.snk, after.snk, before.strobes, after.strobes⟩
  rw [step_pending pending, takeInput, resetDuring, h]

/-! ### End of data (R242) -/

/-- One of the four readers at an exhausted source answers EOD and leaves all but its transient registers. -/
theorem exec_atEnd (isLive : live s) (atEnd : AtEnd s i) :
    ∃ x, exec i s = .next (pushRsp stEod 0#64 (s.withTmp x)) := by
  have ends := exec_ends i s
  generalize exec i s = o at ends
  cases ends with
  | eod x => exact ⟨x, rfl⟩
  | ok _ _ notEnd => exact absurd atEnd notEnd
  | raised _ _ _ notEnd => exact absurd atEnd notEnd
  | refused faulted => exact absurd (isLive.symm.trans faulted) (by decide)
  | stuck _ notEnd => exact absurd atEnd notEnd

/-- A response that is not EOD is not taken for it. -/
theorem not_eod_of_st {u : State} {st : BitVec 8} {rd : BitVec 64} (other : st ≠ stEod) (port : u.port = s.port) :
    u.port.rsps ++ [⟨st, rd⟩] ≠ s.port.rsps ++ [⟨0x01#8, 0#64⟩] := by
  rw [port, ne_eq, List.append_cancel_left_eq]
  intro same
  exact other (congrArg Response.st (List.singleton_injective same))

/-- Settles O43: of the ends of a command, EOD is the one at the end of data, where the same command ends so again. -/
theorem eodExactlyAtTheEndOfData : Obligations.EodExactlyAtTheEndOfData := by
  intro i s t isLive h
  have ends := exec_ends i s
  rw [h] at ends
  change (_ ↔ AtEnd s i) ∧ _
  cases ends with
  | eod x _ atEnd =>
    obtain ⟨x', again⟩ := exec_atEnd (s := pushRsp stEod 0#64 (s.withTmp x)) isLive atEnd
    exact ⟨iff_of_true rfl atEnd, fun _ => ⟨rfl, rfl, _, again, rfl, rfl, rfl⟩⟩
  | ok rd x notEnd effect =>
    have notEod := not_eod_of_st (st := stOk) (rd := rd) (by decide) effect.port
    exact ⟨iff_of_false notEod notEnd, fun eod => absurd eod notEod⟩
  | raised c x _ notEnd effect =>
    have notEod := not_eod_of_st (st := c.code) (rd := 0#64) (by cases c <;> decide) effect.port
    exact ⟨iff_of_false notEod notEnd, fun eod => absurd eod notEod⟩
  | refused faulted => exact absurd (isLive.symm.trans faulted) (by decide)

end

end Sys2Proof.Machine
end

section
/-! The invariant of the machine: it holds at reset, every step keeps it, and under it no step stops (R43, R172, R175, R176,
R190 (c), R193 (e)). -/

namespace Sys2Proof.Machine

/-! ### Reset -/

/-- The reset values of R43, of every register and table but NODE. -/
theorem atReset_resetBlock (s : State) :
    (∀ a : Sym, readFreq (resetBlock s).blk a = 0#64) ∧ ∀ a : Sym, readLeaf (resetBlock s).blk a = nilIdx := by
  simp [readFreq, readLeaf, Block.reset]

/-- Settles O48: `State.reset`, RESET and the pin write the same values, those of R43. -/
theorem resetGivesTheResetState : Obligations.ResetGivesTheResetState := by
  have atReset := atReset_resetBlock
  refine ⟨?_, rfl, fun s => ?_, fun s rest pending => ?_⟩
  · obtain ⟨freq, leaf⟩ := atReset State.reset
    exact ⟨rfl, rfl, rfl, rfl, rfl, rfl, rfl, freq, rfl, rfl, rfl, leaf⟩
  · obtain ⟨freq, leaf⟩ := atReset s
    exact ⟨_, rfl, ⟨rfl, rfl, rfl, rfl, rfl, rfl, rfl, freq, rfl, rfl, rfl, leaf⟩, rfl, rfl⟩
  · obtain ⟨freq, leaf⟩ := atReset s
    exact ⟨_, step_pending pending, ⟨rfl, rfl, rfl, rfl, rfl, rfl, rfl, freq, rfl, rfl, rfl, leaf⟩, rfl, rfl, rfl⟩

/-- After a reset only the streams matter. -/
theorem inv_resetBlock {s : State} (legal : s.env.spos ≤ s.env.src.length) : Inv (resetBlock s) where
  rcntLegal := Nat.zero_le 8
  wbufLowZero _ _ := BitVec.getLsbD_zero
  causeClear _ := rfl
  causeSet faulted := absurd faulted Bool.false_ne_true
  noRoot _ := rfl
  fresh _ _ := ⟨rfl, rfl, (atReset_resetBlock s).2⟩
  tree built := absurd built Bool.false_ne_true
  sposLegal := legal

/-- Settles O50: the reset states are their own reset, over an empty source. -/
theorem invariantHoldsAtReset : Obligations.InvariantHoldsAtReset :=
  ⟨inv_resetBlock (s := State.reset) le_rfl, fun p => inv_resetBlock (s := State.resetUnder p) le_rfl⟩

/-! ### What the invariant speaks of -/

section

variable {s t : State} (inv : Inv s)
include inv

/-- The invariant speaks of the block and of SPOS only. -/
theorem Inv.of_blk (blk : t.blk = s.blk) (legal : t.env.spos ≤ t.env.src.length) : Inv t := by
  constructor
  case sposLegal => exact legal
  all_goals rw [blk]
  case rcntLegal => exact inv.rcntLegal
  case wbufLowZero => exact inv.wbufLowZero
  case causeClear => exact inv.causeClear
  case causeSet => exact inv.causeSet
  case noRoot => exact inv.noRoot
  case fresh => exact inv.fresh
  case tree => exact inv.tree

/-- A fault adds a cause (R26). -/
theorem Inv.enterFault (c : Cause) : Inv (enterFault c s) where
  rcntLegal := inv.rcntLegal
  wbufLowZero := inv.wbufLowZero
  causeClear noFault := absurd noFault (by simp)
  causeSet _ := ⟨c, rfl⟩
  noRoot := inv.noRoot
  fresh _ noFault := absurd noFault (by simp)
  tree built := SameArena.treeOk (b := s.blk) ⟨rfl, rfl, rfl, rfl, rfl⟩ rfl (inv.tree built)
  sposLegal := inv.sposLegal

/-- The reader's registers and SPOS may move on. -/
theorem Inv.withReader (rbuf : BitVec 8) {rcnt : BitVec 4} {spos : ℕ} (reads : ReadsOn s rcnt spos) :
    Inv (s.withReader rbuf rcnt spos) where
  rcntLegal := reads.legal inv.rcntLegal
  wbufLowZero := inv.wbufLowZero
  causeClear := inv.causeClear
  causeSet := inv.causeSet
  noRoot := inv.noRoot
  fresh := inv.fresh
  tree built := SameArena.treeOk (b := s.blk) ⟨rfl, rfl, rfl, rfl, rfl⟩ rfl (inv.tree built)
  sposLegal := reads.inSource inv.sposLegal

/-- The writer's registers may change, if the bits of WBUF that are not pending stay zero. -/
theorem Inv.setWriter (w : BitVec 8) (n : BitVec 3) (clear : LowBitsClear (setWriter w n s).blk) :
    Inv (setWriter w n s) where
  rcntLegal := inv.rcntLegal
  wbufLowZero := clear
  causeClear := inv.causeClear
  causeSet := inv.causeSet
  noRoot := inv.noRoot
  fresh := inv.fresh
  tree built := SameArena.treeOk (b := s.blk) ⟨rfl, rfl, rfl, rfl, rfl⟩ rfl (inv.tree built)
  sposLegal := inv.sposLegal

theorem Inv.wrBits (bits : List Bool) : Inv (wrBits bits s) := by
  have clear := lowBitsClear_wrBits bits inv.wbufLowZero
  obtain ⟨w, n, snk, e⟩ := wrBits_frame bits s
  rw [e] at clear ⊢
  exact (inv.setWriter w n clear).of_blk rfl inv.sposLegal

/-- Before BUILD the table may change. -/
theorem Inv.setFreq (unbuilt : s.blk.tvalid = false) (a : Sym) (n : Count) : Inv (setFreq a n s) where
  rcntLegal := inv.rcntLegal
  wbufLowZero := inv.wbufLowZero
  causeClear := inv.causeClear
  causeSet := inv.causeSet
  noRoot := inv.noRoot
  fresh := inv.fresh
  tree built := absurd (unbuilt.symm.trans built) (by decide)
  sposLegal := inv.sposLegal

/-- A BUILD that completes leaves the tree invariants (R172). -/
theorem Inv.built (same : SameButTree s t) (tree : TreeOk (setTvalid t).blk) : Inv (setTvalid t) := by
  obtain ⟨_, _, _, _, _, _, rfl⟩ := same
  exact ⟨inv.rcntLegal, inv.wbufLowZero, inv.causeClear, inv.causeSet, fun unbuilt => absurd unbuilt (by simp),
    fun unbuilt => absurd unbuilt (by simp), fun _ => tree, inv.sposLegal⟩

/-- A BUILD that overflows leaves no root, and FAULT = 1 (R171). -/
theorem Inv.overflowed (unbuilt : s.blk.tvalid = false) (same : SameButTree s t) (root : t.blk.root = s.blk.root)
    (c : Cause) : Inv (Machine.enterFault c t) := by
  obtain ⟨_, _, _, _, _, _, rfl⟩ := same
  exact ⟨inv.rcntLegal, inv.wbufLowZero, fun noFault => absurd noFault (by simp), fun _ => ⟨c, rfl⟩,
    fun _ => root.trans (inv.noRoot unbuilt), fun _ noFault => absurd noFault (by simp),
    fun built => absurd (unbuilt.symm.trans built) (by decide), inv.sposLegal⟩

end

/-! ### Every step keeps it -/

theorem Inv.effect {s u : State} {i : Instr} (inv : Inv s) (effect : Effect s i none u) : Inv u := by
  cases effect with
  | unchanged => exact inv
  | reset => exact inv_resetBlock inv.sposLegal
  | readBits _ rbuf reads => exact inv.withReader rbuf reads
  | readBytes _ reads => exact inv.withReader s.blk.rbuf reads
  | wroteBits _ bits => exact inv.wrBits bits
  | wroteBytes _ bytes =>
    rw [snkPutAll_eq]
    exact inv.of_blk rfl inv.sposLegal
  | flushedEmpty => exact inv.of_blk rfl inv.sposLegal
  | flushedPending =>
    exact (inv.setWriter 0x00#8 0#3 fun _ _ => BitVec.getLsbD_zero).of_blk rfl inv.sposLegal
  | counted _ unbuilt a n => exact inv.setFreq unbuilt a n
  | built _ same tree => exact inv.built same tree

theorem Inv.effect_raised {s u : State} {i : Instr} {c : Cause} (inv : Inv s) (effect : Effect s i (some c) u) :
    Inv (Machine.enterFault c u) := by
  cases effect with
  | unchanged => exact inv.enterFault c
  | readBits _ rbuf reads => exact (inv.withReader rbuf reads).enterFault c
  | readBytes _ reads => exact (inv.withReader s.blk.rbuf reads).enterFault c
  | overflowed unbuilt same root => exact inv.overflowed unbuilt same root _

theorem Inv.acceptCommand {s t : State} {cw : CmdWord} (inv : Inv s) (h : acceptCommand cw s = .next t) : Inv t := by
  obtain ⟨i, -, ends⟩ := acceptCommand_ends cw s
  rw [h] at ends
  cases ends with
  | ok _ _ _ effect => exact (inv.effect effect).of_blk rfl (inv.effect effect).sposLegal
  | raised _ _ _ _ effect => exact (inv.effect_raised effect).of_blk rfl (inv.effect_raised effect).sposLegal
  | eod => exact inv.of_blk rfl inv.sposLegal
  | refused => exact inv.of_blk rfl inv.sposLegal

/-- One case per host input. -/
theorem Inv.takeInput {s t : State} {inp : HostInput} (inv : Inv s) (h : takeInput inp s = .next t) : Inv t := by
  cases inp with
  | command cw => exact inv.acceptCommand h
  | rewind =>
    cases h
    exact inv.of_blk rfl (Nat.zero_le _)
  | replaceSource bytes =>
    cases h
    exact inv.of_blk rfl (Nat.zero_le _)
  | replaceSink =>
    cases h
    exact inv.of_blk rfl inv.sposLegal
  | pinReset =>
    cases h
    exact inv_resetBlock inv.sposLegal
  | pinResetDuring cw made =>
    rw [Machine.takeInput, resetDuring] at h
    cases accepted : Machine.acceptCommand cw s with
    | next u =>
      rw [accepted] at h
      cases h
      have grow := (acceptCommand_streamsGrow inv.sposLegal accepted).abandoned made
      exact (inv_resetBlock inv.sposLegal).of_blk rfl grow.1.inSource
    | fault f => simp [accepted] at h
    | refused r => simp [accepted] at h

/-- Settles O51: the idle step keeps the state, and each host input keeps the invariant. -/
theorem stepKeepsTheInvariant : Obligations.StepKeepsTheInvariant := by
  intro s t inv h
  rw [step] at h
  split at h
  · cases h
    exact inv
  next inp rest _ => exact (inv.of_blk (t := { s with port.inputs := rest }) rfl inv.sposLegal).takeInput h

/-! ### Under it no step stops -/

/-- ENCODE of a symbol without a leaf faults (R190). -/
theorem exec_encode_noLeaf {a : Sym} {s : State} (isLive : live s) (built : s.blk.tvalid = true)
    (hasRoot : s.blk.root ≠ nilIdx) (noLeaf : readLeaf s.blk a = nilIdx) :
    exec (.encode a) s = raise .noLeaf s := by
  change execEncode a s = _
  rw [execEncode, whenLive_live isLive, if_neg (by simp [built, hasRoot]), if_pos noLeaf]

section

variable {s : State} (inv : Inv s)
include inv

theorem Inv.exec_encode_next (a : Sym) : ∃ t, exec (.encode a) s = .next t := by
  cases fault : s.blk.fault with
  | true => exact ⟨_, exec_faulted fault (by simp) (by simp)⟩
  | false =>
    by_cases noTree : s.blk.tvalid = false ∨ s.blk.root = nilIdx
    · exact ⟨_, exec_encode_noTree fault a noTree⟩
    · obtain ⟨built, hasRoot⟩ := not_or.1 noTree
      rw [Bool.not_eq_false] at built
      by_cases noLeaf : readLeaf s.blk a = nilIdx
      · exact ⟨_, exec_encode_noLeaf fault built hasRoot noLeaf⟩
      · obtain ⟨_, e⟩ := exec_encode_live fault built (inv.tree built) noLeaf
        exact ⟨_, e⟩

theorem Inv.exec_decode_next : ∃ t, exec .decode s = .next t := by
  cases fault : s.blk.fault with
  | true => exact ⟨_, exec_faulted fault (by simp) (by simp)⟩
  | false =>
    by_cases noTree : s.blk.tvalid = false ∨ s.blk.root = nilIdx
    · exact ⟨_, exec_decode_noTree fault noTree⟩
    · obtain ⟨built, hasRoot⟩ := not_or.1 noTree
      rw [Bool.not_eq_false] at built
      have ends := exec_decode_ends fault built (inv.tree built) hasRoot inv.rcntLegal
      generalize exec .decode s = o at ends
      cases ends with
      | symbol => exact ⟨_, rfl⟩
      | noBit => exact ⟨_, rfl⟩
      | malformed => exact ⟨_, rfl⟩

/-- Only the walks of the codec can stop, and the depth of the tree bounds them (R176). -/
theorem Inv.exec_next (i : Instr) : ∃ t, exec i s = .next t := by
  have ends := exec_ends i s
  generalize outcome : exec i s = o at ends
  cases ends with
  | stuck e _ codec =>
    rw [← outcome]
    obtain ⟨a, rfl⟩ | rfl := codec
    · exact inv.exec_encode_next a
    · exact inv.exec_decode_next
  | _ => exact ⟨_, rfl⟩

theorem Inv.acceptCommand_next (cw : CmdWord) : ∃ t, Machine.acceptCommand cw s = .next t := by
  cases decoded : decode cw with
  | ok i =>
    rw [acceptCommand_ok decoded]
    exact inv.exec_next i
  | error e =>
    rw [acceptCommand_illegal decoded]
    cases fault : s.blk.fault with
    | true => exact ⟨_, whenLive_faulted fault _⟩
    | false => exact ⟨_, whenLive_live fault _⟩

end

/-- Settles O52: a step takes no input or one, and only a command could stop. -/
theorem invariantMeansNoStepStops : Obligations.InvariantMeansNoStepStops := by
  intro s inv
  rw [step]
  split
  · exact ⟨s, rfl⟩
  next inp rest _ =>
    have accepts (cw : CmdWord) : ∃ t, acceptCommand cw { s with port.inputs := rest } = .next t :=
      (inv.of_blk (t := { s with port.inputs := rest }) rfl inv.sposLegal).acceptCommand_next cw
    cases inp with
    | command cw => exact accepts cw
    | pinResetDuring cw made =>
      obtain ⟨u, e⟩ := accepts cw
      rw [takeInput, resetDuring, e]
      exact ⟨_, rfl⟩
    | _ => exact ⟨_, rfl⟩

/-! ### The tree between BUILD and RESET -/

/-- A BUILD that sets TVALID has made a tree with the invariants of R172. -/
theorem treeOk_of_exec_build {s t : State} (isLive : live s) (unbuilt : s.blk.tvalid = false)
    (h : exec .build s = .next t) (complete : t.blk.tvalid = true) : TreeOk t.blk := by
  obtain ⟨u, same, tree, e⟩ | ⟨u, same, root, e⟩ := exec_build_outcome isLive unbuilt
  · rw [e] at h
    cases h
    exact tree
  · obtain ⟨_, _, _, _, _, _, rfl⟩ := same
    rw [e] at h
    cases h
    exact absurd (unbuilt.symm.trans complete) (by decide)

/-- Settles O23: a BUILD that sets TVALID has made the tree, and no command but RESET writes it. -/
theorem builtTreeIsWellFormedUntilReset : Obligations.BuiltTreeIsWellFormedUntilReset := by
  refine ⟨fun s t => treeOk_of_exec_build, fun i s t notReset built tree h => ?_⟩
  have ends := exec_ends i s
  rw [h] at ends
  obtain ⟨stillBuilt, arena, root⟩ := ends.frozen built notReset
  exact ⟨stillBuilt, arena.treeOk root tree⟩

end Sys2Proof.Machine
end

section
/-! Series of commands (R75): WRBITs and ENCODEs on the writer, RDBITs and DECODEs on the reader (R78, R192, R194). -/

namespace Sys2Proof.Machine

/-! ### Running several commands -/

theorem execAll_cons {i : Instr} {is : List Instr} {s t : State} (e : exec i s = .next t) :
    execAll (i :: is) s = execAll is t := by
  rw [execAll, e]

theorem execAll_singleton {i : Instr} {s t : State} (e : exec i s = .next t) : execAll [i] s = .next t :=
  execAll_cons e

theorem execAll_append {is more : List Instr} {s t : State} (first : execAll is s = .next t) :
    execAll (is ++ more) s = execAll more t := by
  induction is generalizing s with
  | nil =>
    cases first
    rfl
  | cons i is ih =>
    rw [execAll] at first
    rw [List.cons_append, execAll]
    cases e : exec i s with
    | next u =>
      rw [e] at first
      exact ih first
    | fault f => simp [e] at first
    | refused r => simp [e] at first

/-! ### The writer -/

/-- The instruction WRBIT of one bit. -/
def wrbitOf (b : Bool) : Instr := .wrbit (if b then 1#8 else 0#8)

theorem exec_wrbitOf {s : State} (isLive : live s) (b : Bool) :
    exec (wrbitOf b) s = .next (pushRsp stOk 0#64 (wrBit b s)) := by
  rw [wrbitOf, exec_wrbit_live isLive]
  cases b with
  | false => rfl
  | true => rfl

/-- The writer neither reads nor changes the port. -/
theorem wrBits_withPort (bits : List Bool) (p : Port) (s : State) :
    wrBits bits (s.withPort p) = (wrBits bits s).withPort p := by
  induction bits generalizing s with
  | nil => rfl
  | cons b bits ih => rw [wrBits_cons, wrBit_withPort, ih, wrBits_cons]

/-- A series of WRBITs is `WrBit` of each bit. -/
theorem execAll_wrbits (bits : List Bool) {s : State} (isLive : live s) :
    ∃ p, execAll (bits.map wrbitOf) s = .next ((wrBits bits s).withPort p) := by
  induction bits generalizing s with
  | nil => exact ⟨s.port, rfl⟩
  | cons b bits ih =>
    obtain ⟨p, rest⟩ := ih (s := pushRsp stOk 0#64 (wrBit b s)) ((wrBit_fault b s).trans isLive)
    have answered : pushRsp stOk 0#64 (wrBit b s) = (wrBit b s).withPort ((wrBit b s).port.answered stOk 0#64) := rfl
    refine ⟨p, ?_⟩
    rw [List.map_cons, execAll_cons (exec_wrbitOf isLive b), rest, answered, wrBits_withPort, wrBits_cons]
    rfl

/-- A series of ENCODEs is `WrBit` of each bit of the codes, one after the other, up to the transient registers. -/
theorem execAll_encodes {syms : List Sym} {s : State} (ready : Encodable syms s) :
    ∃ x p, execAll (syms.map .encode) s =
      .next ((wrBits (syms.flatMap (code s.blk)) s).beside x p s.env.spos) := by
  induction syms generalizing s with
  | nil => exact ⟨s.tmp, s.port, rfl⟩
  | cons a syms ih =>
    obtain ⟨stk, e⟩ := exec_encode_live ready.isLive ready.built ready.tree (ready.leaf a List.mem_cons_self)
    generalize hx : ({ s.tmp with cstk := stk, clen := 0#8 } : Transient) = x at e
    generalize hp : s.port.answered stOk (BitVec.ofNat 64 (code s.blk a).length) = p
    have after : pushRsp stOk (BitVec.ofNat 64 (code s.blk a).length) ((wrBits (code s.blk a) s).withTmp x) =
        (emitOne a s).beside x p s.env.spos := by
      obtain ⟨_, _, _, frame⟩ := wrBits_frame (code s.blk a) s
      rw [emitOne, frame, ← hp]
      rfl
    have sameCode : code (emitOne a s).blk = code s.blk := funext (sameArena_wrBits _ s).code
    obtain ⟨x', p', rest⟩ := ih (scans_encode.ready_beside _ _ x p s.env.spos ready.next)
    refine ⟨x', p', ?_⟩
    rw [List.map_cons, execAll_cons e, after, rest, wrBits_beside]
    change Host.Outcome.next ((wrBits (syms.flatMap (code (emitOne a s).blk)) (emitOne a s)).beside x' p' s.env.spos) = _
    rw [sameCode, emitOne, ← wrBits_append, List.flatMap_cons]

/-- Settles O36: both series do `WrBit` of the same bits, and FLUSH pads what the second has written. -/
theorem encodeIsASequenceOfWrbits : Obligations.EncodeIsASequenceOfWrbits := by
  refine ⟨fun a s isLive built tree has => ?_, fun syms s inv isLive built empty leaves => ?_⟩
  · obtain ⟨stk, encoded⟩ := exec_encode_live isLive built tree has
    obtain ⟨p, written⟩ := execAll_wrbits (code s.blk a) isLive
    exact ⟨_, _, encoded, written, rfl, rfl, rfl⟩
  · obtain ⟨x, p, encoded⟩ := execAll_encodes ⟨isLive, built, inv.tree built, leaves⟩
    obtain ⟨t, payload, pad, flushed, -, snk, few, bits⟩ :=
      exec_flush_of_wrBits (u := (wrBits (syms.flatMap (code s.blk)) s).beside x p s.env.spos) isLive empty
        inv.wbufLowZero rfl rfl
    exact ⟨_, payload, pad, (execAll_append encoded).trans (execAll_singleton flushed), snk, few, bits⟩

/-! ### The reader -/

theorem Effect.rcntLegal {s u : State} {i : Instr} {c : Option Cause} (effect : Effect s i c u)
    (legal : s.blk.rcnt.toNat ≤ 8) : u.blk.rcnt.toNat ≤ 8 := by
  cases effect with
  | reset => exact Nat.zero_le 8
  | readBits _ _ reads => exact reads.legal legal
  | wroteBits _ bits =>
    obtain ⟨_, _, _, e⟩ := wrBits_frame bits s
    rw [e]
    exact legal
  | wroteBytes _ bytes =>
    rw [snkPutAll_eq]
    exact legal
  | overflowed _ same _ =>
    obtain ⟨_, _, _, _, _, _, rfl⟩ := same
    exact legal
  | built _ same _ =>
    obtain ⟨_, _, _, _, _, _, rfl⟩ := same
    exact legal
  | _ => exact legal

/-- No command makes RCNT illegal (R28). -/
theorem exec_rcntLegal {s t : State} {i : Instr} (h : exec i s = .next t) (legal : s.blk.rcnt.toNat ≤ 8) :
    t.blk.rcnt.toNat ≤ 8 := by
  have ends := exec_ends i s
  rw [h] at ends
  cases ends with
  | ok _ _ _ effect => exact effect.rcntLegal legal
  | raised _ _ _ _ effect => exact effect.rcntLegal legal
  | eod => exact legal
  | refused => exact legal

/-- A reader at the code of a symbol: there is a tree, and the bits to read begin with the code. -/
structure AtCode (a : Sym) (rest : List Bool) (s : State) : Prop where
  isLive : live s
  built : s.blk.tvalid = true
  tree : TreeOk s.blk
  legal : s.blk.rcnt.toNat ≤ 8
  leaf : readLeaf s.blk a ≠ nilIdx
  bits : bitsToRead s = code s.blk a ++ rest

/-- DECODE at the code of a symbol answers the symbol and reads the code, no more (R193). -/
theorem AtCode.exec_decode {a : Sym} {rest : List Bool} {s : State} (h : AtCode a rest s) :
    ∃ t, exec .decode s = .next (pushRsp stOk (BitVec.ofNat 64 a.toNat) t) ∧ ReaderMoved s t ∧
      t.blk.rcnt.toNat ≤ 8 ∧ bitsToRead t = rest := by
  have ends := exec_decode_ends h.isLive h.built h.tree (h.tree.root_ne_nil h.leaf) h.legal
  rw [h.bits] at ends
  generalize outcome : exec .decode s = o at ends
  cases ends with
  | symbol x t hasX split moved =>
    obtain rfl := symbol_eq_of_code_append h.tree h.leaf hasX split
    have legal' : (pushRsp stOk (rdOfByte a) t).blk.rcnt.toNat ≤ 8 := exec_rcntLegal outcome h.legal
    exact ⟨t, by rw [← rdOfByte_eq_ofNat, respond_eq], moved, legal', (List.append_cancel_left split).symm⟩
  | noBit none => exact absurd (List.append_eq_nil_iff.1 none).1 (code_ne_nil h.tree h.leaf)
  | malformed t _ noCode => exact absurd (List.prefix_append _ _) (noCode a h.leaf)

/-- The reader moves without the table and the tree. -/
theorem ReaderMoved.sameArena {s t : State} (moved : ReaderMoved s t) : SameArena s.blk t.blk := by
  obtain ⟨_, _, _, _, _, rfl⟩ := moved
  exact ⟨rfl, rfl, rfl, rfl, rfl⟩

theorem ReaderMoved.control {s t : State} (moved : ReaderMoved s t) :
    t.blk.fault = s.blk.fault ∧ t.blk.tvalid = s.blk.tvalid ∧ t.blk.root = s.blk.root ∧ t.port = s.port := by
  obtain ⟨_, _, _, _, _, rfl⟩ := moved
  exact ⟨rfl, rfl, rfl, rfl⟩

/-- Settles O38: each DECODE reads the code of the first symbol left. -/
theorem decodesInvertEncodes : Obligations.DecodesInvertEncodes := by
  intro syms rest s isLive built tree legal leaves bits
  induction syms generalizing s with
  | nil => exact ⟨s, rfl, bits, (List.append_nil _).symm⟩
  | cons a syms ih =>
    rw [List.flatMap_cons, List.append_assoc] at bits
    obtain ⟨t, e, moved, legal', left⟩ :=
      AtCode.exec_decode ⟨isLive, built, tree, legal, leaves a List.mem_cons_self, bits⟩
    have arena := moved.sameArena
    obtain ⟨fault, tvalid, root, port⟩ := moved.control
    obtain ⟨u, series, done, rsps⟩ := ih (pushRsp stOk (BitVec.ofNat 64 a.toNat) t) (fault.trans isLive)
      (tvalid.trans built) (arena.treeOk root tree) legal'
      (fun x hx => by
        rw [pushRsp_blk, arena.readLeaf]
        exact leaves x (List.mem_cons_of_mem _ hx))
      (by
        rw [pushRsp_blk, show code t.blk = code s.blk from funext arena.code]
        exact left)
    refine ⟨u, (execAll_cons e).trans series, done, ?_⟩
    rw [rsps, pushRsp_rsps, port, List.map_cons, List.append_assoc]
    rfl

/-- The answer of RDBIT to the next bit, or to the end of data. -/
def bitAnswer : Option Bool → Response
  | some b => ⟨stOk, if b then 1#64 else 0#64⟩
  | none => ⟨stEod, 0#64⟩

/-- A series of RDBITs answers the bits to read, and then EOD. -/
theorem execAll_rdbits (n : ℕ) {s : State} (isLive : live s) (legal : s.blk.rcnt.toNat ≤ 8) :
    ∃ u, execAll (List.replicate n .rdbit) s = .next u ∧
      u.port.rsps = s.port.rsps ++ (List.range n).map fun i => bitAnswer (bitsToRead s)[i]? := by
  induction n generalizing s with
  | zero => exact ⟨s, rfl, (List.append_nil _).symm⟩
  | succ n ih =>
    rw [List.replicate_succ, List.range_succ_eq_map, List.map_cons, List.map_map]
    obtain ⟨none, read⟩ | ⟨bit, rbuf, rcnt, spos, read, legal', some⟩ := rdBit_bitsToRead legal
    · obtain ⟨u, rest, rsps⟩ := ih (s := pushRsp stEod 0#64 s) isLive legal
      refine ⟨u, (execAll_cons (exec_rdbit_none isLive read)).trans rest, ?_⟩
      have same : bitsToRead (pushRsp stEod 0#64 s) = [] := none
      rw [rsps, same, none]
      simp [bitAnswer, Function.comp_def]
    · obtain ⟨u, rest, rsps⟩ := ih
        (s := pushRsp stOk (if bit then 1#64 else 0#64) (s.withReader rbuf rcnt spos)) isLive legal'
      refine ⟨u, (execAll_cons (exec_rdbit_some isLive read)).trans rest, ?_⟩
      have same : bitsToRead s = bit :: bitsToRead (pushRsp stOk (if bit then 1#64 else 0#64)
        (s.withReader rbuf rcnt spos)) := some
      rw [rsps, same]
      simp [bitAnswer, Function.comp_def, State.withReader]

theorem length_streamBits (bs : List Byte) : (streamBits bs).length = 8 * bs.length := by
  simp [streamBits, List.length_flatMap, Nat.mul_comm]

/-- An empty reader delivers what is left of the source. -/
theorem bitsToRead_of_empty {s : State} (empty : s.blk.rcnt = 0#4) :
    bitsToRead s = streamBits (s.env.src.drop s.env.spos) := by
  rw [bitsToRead, empty, List.drop_of_length_le (by simp), List.nil_append]

/-- What RDBIT answers to the bits of a writer that were padded to `8 * m` of them. -/
theorem bitAnswer_padded (bits : List Bool) {pad m : ℕ} (whole : 8 * m = bits.length + pad) (i : ℕ) :
    bitAnswer (bits ++ List.replicate pad false)[i]? =
      if i < bits.length then ⟨0x00#8, if bits.getD i false then 1#64 else 0#64⟩
      else if i < 8 * m then ⟨0x00#8, 0#64⟩ else ⟨0x01#8, 0#64⟩ := by
  split
  next written =>
    rw [List.getElem?_append_left written, List.getD_eq_getElem _ _ written, List.getElem?_eq_getElem written]
    rfl
  next notWritten =>
    rw [List.getElem?_append_right (not_lt.1 notWritten), List.getElem?_replicate]
    split
    next => rw [if_pos (by omega)]; rfl
    next => rw [if_neg (by omega)]; rfl

/-- Settles O39: FLUSH pads the bits written to whole bytes, and RDBITs answer the bits of these bytes. -/
theorem bitWrittenIsBitRead : Obligations.BitWrittenIsBitRead := by
  intro bits s inv isLive empty
  obtain ⟨p, written⟩ := execAll_wrbits bits isLive
  obtain ⟨t, payload, pad, flushed, -, snk, few, padded⟩ :=
    exec_flush_of_wrBits (u := (wrBits bits s).withPort p) isLive empty inv.wbufLowZero rfl rfl
  have length := congrArg List.length padded
  rw [length_streamBits, List.length_append, List.length_replicate] at length
  refine ⟨_, payload, (execAll_append written).trans (execAll_singleton flushed), snk, by omega, ?_⟩
  intro r n readerLive readerEmpty source
  obtain ⟨u, read, rsps⟩ := execAll_rdbits n readerLive (by rw [readerEmpty]; decide)
  refine ⟨u, read, rsps.trans (congrArg _ (List.map_congr_left fun i _ => ?_))⟩
  rw [bitsToRead_of_empty readerEmpty, source, padded]
  exact bitAnswer_padded bits (by omega) i

end Sys2Proof.Machine
end

section
/-! The steps that take a word or none (R98, R102, R255), the faults of the codec (R190, R193), and GETTOTAL after BUILD
(R179). -/

namespace Sys2Proof.Machine

/-! ### One step -/

/-- Settles O4: a pending word is taken, and a word that decodes runs its command's rule. -/
theorem stepRunsTheDecodedCommand : Obligations.StepRunsTheDecodedCommand := by
  intro s cw rest i pending decoded
  rw [step_pending pending, takeInput, acceptCommand_ok decoded]

/-- Settles O6: the step looks at the pending inputs first. -/
theorem idleStepHoldsTheState : Obligations.IdleStepHoldsTheState := by
  intro s idle
  rw [step, idle]

/-! ### NO_TREE and NO_LEAF -/

/-- Settles O35: both tests stand before the walks, and `raise` writes FAULT and CAUSE only. -/
theorem codecFaultsTouchNoBit : Obligations.CodecFaultsTouchNoBit := fun a _ isLive =>
  ⟨fun noTree => ⟨exec_encode_noTree isLive a noTree, exec_decode_noTree isLive noTree⟩,
    fun built hasRoot noLeaf => exec_encode_noLeaf isLive built hasRoot noLeaf⟩

/-! ### The count of the root -/

/-- The last node waiting is one of the arena, and if it is a leaf there is room for a synthetic root. -/
theorem Forest.last_room {s : State} {r : NodeIdx} (h : Forest s) (last : s.tmp.pq = [r]) :
    r.toNat < s.blk.nnode.toNat ∧ ((readNode s.blk r).kind = .leaf → s.blk.nnode ≠ nilIdx) := by
  refine ⟨((h.waiting r).1 (last ▸ List.mem_singleton_self r)).1, fun leaf => ?_⟩
  have few : s.blk.nleaf.toNat < 2 := by
    by_contra two
    rw [h.last_internal last (not_lt.1 two)] at leaf
    cases leaf
  have size := h.size
  exact ne_nil_of_toNat_lt (n := 4#9) (by change _ < 4; omega)

/-- The root counts the whole table, whether it is the last join or a synthetic one. -/
theorem Forest.root_count {s : State} (h : Forest s) (one : s.tmp.pq.length = 1) :
    (rootPhase s).blk.root ≠ nilIdx ∧
      (readNode (rootPhase s).blk (rootPhase s).blk.root).count.toNat = totalFreq s.blk := by
  obtain ⟨r, last⟩ := List.length_eq_one_iff.1 one
  have weight : (readNode s.blk r).count.toNat = totalFreq s.blk := by
    rw [← h.weight, queueWeight, last, List.map_singleton, List.sum_singleton]
  obtain ⟨old, room⟩ := h.last_room last
  cases kind : (readNode s.blk r).kind with
  | internal =>
    rw [rootPhase_internal last kind]
    exact ⟨ne_nil_of_toNat_lt old, weight⟩
  | leaf =>
    rw [rootPhase_leaf last kind, wrapped_root, readNode_wrapped_root (room kind) old]
    exact ⟨room kind, weight⟩

/-- Settles O30: without a leaf the sum is 0 and there is no root; otherwise the root counts it. -/
theorem gettotalIsTheSumOfTheCounts : Obligations.GettotalIsTheSumOfTheCounts := by
  intro s t isLive unbuilt h complete
  obtain ⟨noLeaf, e⟩ | ⟨u, same, forest, one, e⟩ | ⟨u, same, _, _, e⟩ := exec_build_cases isLive unbuilt
  · rw [e] at h
    cases h
    have stillLive := (buildStart_spec s).2.same.fault_eq.trans isLive
    exact ⟨0#64, exec_gettotal_noRoot stillLive rfl, (totalFreq_eq_zero_of_noLeaf noLeaf).2.symm⟩
  · rw [e] at h
    cases h
    have stillLive := (same.trans (sameButTree_rootPhase u)).fault_eq.trans isLive
    obtain ⟨hasRoot, count⟩ := forest.root_count one
    exact ⟨_, exec_gettotal_root stillLive hasRoot, count.trans same.totalFreq⟩
  · obtain ⟨_, _, _, _, _, _, rfl⟩ := same
    rw [e] at h
    cases h
    exact absurd (unbuilt.symm.trans complete) (by decide)

end Sys2Proof.Machine
end

section
/-! The encoded examples, and the words of the written forms (R91, R100, R101). -/

namespace Sys2Proof.Machine

/-- Settles O2: each legal example is the encoding of its instruction. -/
theorem exampleWordsDecode : Obligations.ExampleWordsDecode :=
  ⟨decode_encode .nop rfl, decode_encode .reset rfl, decode_encode .rdbit rfl, decode_encode (.wrbit 1#8) rfl,
    decode_encode (.wrbyte 0x41#64) rfl, decode_encode (.wrword 1000#64) rfl, decode_encode (.count 0x41#8) rfl,
    decode_encode (.setfreq 0x41#8 1000#64) rfl, decode_encode .build rfl, decode_encode (.encode 0x43#8) rfl,
    decode_encode .decode rfl, by decide, by decide⟩

/-- The assembler's test of an operand against the greatest value that fits. -/
theorem decide_lt_iff_le (m n : ℕ) : decide (n < m + 1) = true ↔ n ≤ m := decide_eq_true_iff.trans Nat.lt_succ_iff

/-- Settles O58: a form whose operands fit assembles to the encoding of its command, and no other form does. -/
theorem writtenFormsAssemble : Obligations.WrittenFormsAssemble := by
  refine ⟨⟨rfl, rfl, rfl, rfl, rfl, rfl, rfl, rfl, rfl, rfl, rfl⟩, fun b => ?_, fun b => ?_, fun n => ?_, fun a => ?_,
    fun a n => ?_, fun a => ?_, fun a => ?_, fun _ => rfl, fun _ => rfl, rfl⟩
  · exact if_congr (decide_lt_iff_le 255 b) rfl rfl
  · exact if_congr (decide_lt_iff_le 1 b) rfl rfl
  · exact if_congr decide_eq_true_iff rfl rfl
  · exact if_congr (decide_lt_iff_le 255 a) rfl rfl
  · refine if_congr ?_ rfl rfl
    simp only [Written.wellFormed, Bool.and_eq_true, decide_eq_true_iff, Nat.lt_succ_iff]
  · exact if_congr (decide_lt_iff_le 255 a) rfl rfl
  · exact if_congr (decide_lt_iff_le 255 a) rfl rfl

end Sys2Proof.Machine
end

section
/-! A failed sequence (R218, R221). -/

namespace Sys2Proof.Machine

/-- After a failure the host discards the sink and issues RESET. -/
theorem settle_finish_failure (c : BitVec 8) (t : State) : settle (finish (.failure c) t) =
    finish (.failure c) (pushRsp stOk 0#64 (resetBlock (replaceSink t))) := by
  change issue .reset (replaceSink t) (fun _ u => finish (.failure c) u) = _
  exact issue_of_exec rfl rfl _

theorem settle_failure {run : HostRun} {c : BitVec 8} {t : State} (failed : settle run = .next (.failure c, t)) :
    t.env.snk = [] ∧ t.blk = { Block.reset with node := t.blk.node } := by
  match run with
  | .next (.success, u) => cases failed
  | .next (.failure code, u) =>
    rw [show Host.Outcome.next (HostResult.failure code, u) = finish (.failure code) u from rfl,
      settle_finish_failure] at failed
    cases failed
    exact ⟨rfl, rfl⟩
  | .fault f => cases failed
  | .refused r => cases failed

/-- Settles O57: both jobs end with `settle`. -/
theorem failedSequenceLeavesNoOutput : Obligations.FailedSequenceLeavesNoOutput := by
  rintro input s t c (failed | failed)
  · exact settle_failure failed
  · exact settle_failure failed

end Sys2Proof.Machine
end

section
/-! The tree is a function of the table (R174): two BUILDs of equal tables go in parallel, whatever the arenas held before. -/

namespace Sys2Proof.Machine

/-- Two blocks with the same tree: the same leaf index and root, and the same nodes below NNODE. -/
structure SameTree (b b' : Block) : Prop where
  nnode : b'.nnode = b.nnode
  nleaf : b'.nleaf = b.nleaf
  root : b'.root = b.root
  leaf : b'.leaf = b.leaf
  node : ∀ i : NodeIdx, i.toNat < b.nnode.toNat → readNode b' i = readNode b i

/-! ### The codes of a tree -/

section

variable {b b' : Block} (same : SameTree b b')
include same

theorem SameTree.readLeaf (a : Sym) : readLeaf b' a = readLeaf b a := by simp only [Machine.readLeaf, same.leaf]

/-- A path leads through nodes below NNODE only. -/
theorem SameTree.reaches {w : List Bool} {n : NodeIdx} (path : Reaches b w n) : Reaches b' w n := by
  induction path with
  | root => exact same.root ▸ .root
  | @step w p _ inner bit inTree ih =>
    have sameChild : child b' p bit = child b p bit := by rw [child, child, same.node p inner.2]
    have inner' : IsInner b' p := by rwa [IsInner, same.nleaf, same.nnode]
    rw [← sameChild] at inTree ⊢
    exact ih.step inner' bit inTree

/-- The codes are the paths to the leaves. -/
theorem SameTree.code_eq (tree : TreeOk b) (tree' : TreeOk b') {a : Sym} (has : Machine.readLeaf b a ≠ nilIdx) :
    code b' a = code b a := by
  have path := same.reaches (reaches_code tree has)
  rw [← same.readLeaf] at path has
  exact (path.eq_code tree' has).symm

end

/-! ### The leaf phase -/

theorem freq_eq_of_readFreq {b b' : Block} (same : ∀ a, readFreq b' a = readFreq b a) : b'.freq = b.freq :=
  Vector.ext fun i hi => by simpa [readFreq, Nat.mod_eq_of_lt hi] using same (BitVec.ofNat 8 i)

theorem leaf_eq_of_readLeaf {b b' : Block} (same : ∀ a, readLeaf b' a = readLeaf b a) : b'.leaf = b.leaf :=
  Vector.ext fun i hi => by simpa [readLeaf, Nat.mod_eq_of_lt hi] using same (BitVec.ofNat 8 i)

/-- Two leaf phases that have scanned the symbols below `k`, with the same leaves so far. -/
structure LeavesParallel (k : ℕ) (t t' : State) : Prop where
  nnode : t'.blk.nnode = t.blk.nnode
  pq : t'.tmp.pq = t.tmp.pq
  leaf : ∀ a : Sym, a.toNat < k → readLeaf t'.blk a = readLeaf t.blk a
  node : ∀ i : NodeIdx, i.toNat < t.blk.nnode.toNat → readNode t'.blk i = readNode t.blk i

section

variable {a : Sym} {t t' : State} (h : LeavesParallel a.toNat t t')
include h

theorem LeavesParallel.absent : LeavesParallel (a.toNat + 1) (setLeaf a nilIdx t) (setLeaf a nilIdx t') where
  nnode := h.nnode
  pq := h.pq
  node := h.node
  leaf x below := by
    rw [readLeaf_setLeaf, readLeaf_setLeaf]
    split
    next => rfl
    next other => exact h.leaf x ((toNat_lt_succ_iff.1 below).resolve_left other)

theorem LeavesParallel.present (n : Count) (room : t.blk.nnode ≠ nilIdx) :
    LeavesParallel (a.toNat + 1) (withLeaf a n t) (withLeaf a n t') := by
  have room' : t'.blk.nnode ≠ nilIdx := h.nnode ▸ room
  constructor
  case nnode => simp [withLeaf, h.nnode]
  case pq => rw [withLeaf_pq, withLeaf_pq, h.nnode, h.pq]
  case leaf =>
    intro x below
    obtain rfl | below := toNat_lt_succ_iff.1 below
    · rw [readLeaf_withLeaf_same, readLeaf_withLeaf_same, h.nnode]
    · have other : x ≠ a := by rintro rfl; exact lt_irrefl _ below
      rw [readLeaf_withLeaf_other _ _ _ other, readLeaf_withLeaf_other _ _ _ other, h.leaf x below]
  case node =>
    intro i below
    rw [withLeaf_nnode _ _ room] at below
    obtain rfl | old := toNat_lt_succ_iff.1 below
    · rw [readNode_withLeaf_new _ _ room, ← h.nnode, readNode_withLeaf_new _ _ room']
    · rw [readNode_withLeaf_old _ _ room old, readNode_withLeaf_old _ _ room' (by rwa [h.nnode]), h.node i old]

end

/-- The symbols are scanned in the same order, with the same counts. -/
theorem leavesParallel_leavesFrom {s s' : State} (freq : s'.blk.freq = s.blk.freq) (noNode : s.blk.nnode = 0#9)
    (noNode' : s'.blk.nnode = 0#9) (noQueue : s.tmp.pq = []) (noQueue' : s'.tmp.pq = []) :
    ∀ k ≤ 256, LeavesParallel k (leavesFrom s k) (leavesFrom s' k) := by
  intro k
  induction k with
  | zero =>
    refine fun _ => ⟨noNode'.trans noNode.symm, noQueue'.trans noQueue.symm, fun _ below => absurd below (by simp),
      fun i below => absurd below ?_⟩
    rw [show (leavesFrom s 0).blk.nnode = 0#9 from noNode]
    exact Nat.not_lt_zero _
  | succ k ih =>
    intro hk
    obtain ⟨a, rfl⟩ : ∃ a : Sym, k = a.toNat := ⟨BitVec.ofNat 8 k, (Nat.mod_eq_of_lt hk).symm⟩
    have h := ih (Nat.le_of_succ_le hk)
    have before := leavesBelow_leavesFrom noNode noQueue _ (Nat.le_of_succ_le hk)
    have before' := leavesBelow_leavesFrom noNode' noQueue' _ (Nat.le_of_succ_le hk)
    have sameCount : readFreq s'.blk a = readFreq s.blk a := by simp only [readFreq, freq]
    rw [leavesFrom_toNat_succ, leavesFrom_toNat_succ]
    by_cases zero : readFreq s.blk a = 0#64
    · rw [leafStep_absent ((before.same.readFreq a).trans zero),
        leafStep_absent ((before'.same.readFreq a).trans (sameCount.trans zero))]
      exact h.absent
    · rw [leafStep_present (by rwa [before.same.readFreq]), leafStep_present (by rwa [before'.same.readFreq, sameCount]),
        before.same.readFreq, before'.same.readFreq, sameCount]
      exact h.present _ before.nnode_ne_nil

/-! ### The merge loop -/

/-- Two merge loops in parallel: the same leaf index, the same nodes below NNODE, and the same queue. -/
structure Parallel (t t' : State) : Prop where
  nnode : t'.blk.nnode = t.blk.nnode
  nleaf : t'.blk.nleaf = t.blk.nleaf
  leaf : t'.blk.leaf = t.blk.leaf
  pq : t'.tmp.pq = t.tmp.pq
  node : ∀ i : NodeIdx, i.toNat < t.blk.nnode.toNat → readNode t'.blk i = readNode t.blk i

/-- NLEAF is written last. -/
theorem LeavesParallel.setNleaf {t t' : State} (h : LeavesParallel 256 t t') :
    Parallel (setNleaf t.blk.nnode t) (setNleaf t'.blk.nnode t') :=
  ⟨h.nnode, h.nnode, leaf_eq_of_readLeaf fun a => h.leaf a a.isLt, h.pq, h.node⟩

theorem parallel_buildStart {s s' : State} (freq : s'.blk.freq = s.blk.freq) :
    Parallel (buildStart s) (buildStart s') := by
  have h := leavesParallel_leavesFrom (s := setPq [] (setNnode 0#9 s)) (s' := setPq [] (setNnode 0#9 s')) freq rfl rfl
    rfl rfl 256 le_rfl
  unfold buildStart
  rw [leafPhase_eq, leafPhase_eq]
  exact h.setNleaf

/-- A queue has one least member (R164). -/
theorem LeastIn.unique {b : Block} {q : List NodeIdx} {m n : NodeIdx} (hm : LeastIn b q m) (hn : LeastIn b q n) :
    n = m := by
  by_contra other
  have less := hm.least n hn.mem other
  have greater := hn.least m hm.mem (Ne.symm other)
  rw [keyBefore_iff_nodeKey_lt] at less greater
  exact lt_asymm less greater

/-- The synthetic root touches no node but the leaf under it. -/
theorem readNode_wrapped_other {s : State} {r i : NodeIdx} (room : s.blk.nnode ≠ nilIdx) (old : r.toNat < s.blk.nnode.toNat)
    (oldI : i.toNat < s.blk.nnode.toNat) (other : i ≠ r) : readNode (wrapped r s).blk i = readNode s.blk i := by
  rw [wrapped, setRoot_readNode, readNode_setPar _ _ _ _ (ne_nil_of_toNat_lt old), if_neg other]
  exact readNode_allocNode_old _ (s := setPq _ s) room oldI

section

variable {s s' : State} (h : Parallel s s')
include h

/-- The least member of the queue is the least one in both. -/
theorem Parallel.leastIn {q : List NodeIdx} (old : ∀ i ∈ q, i.toNat < s.blk.nnode.toNat) {m : NodeIdx}
    (least : LeastIn s'.blk q m) : LeastIn s.blk q m := by
  have key : ∀ i ∈ q, nodeKey s'.blk i = nodeKey s.blk i := fun i hi => by
    rw [nodeKey, nodeKey, h.node i (old i hi)]
  refine ⟨least.mem, fun j hj other => ?_⟩
  have before := least.least j hj other
  rw [keyBefore_iff_nodeKey_lt] at before ⊢
  rwa [← key m least.mem, ← key j hj]

/-- Both merge steps join the same two nodes. -/
theorem Parallel.nextJoin {a b a' b' : NodeIdx} (next : NextJoin s a b) (next' : NextJoin s' a' b') :
    a' = a ∧ b' = b := by
  have old : ∀ i ∈ s.tmp.pq, i.toNat < s.blk.nnode.toNat := fun i hi => ((next.forest.waiting i).1 hi).1
  have first' := next'.first
  have second' := next'.second
  rw [h.pq] at first' second'
  obtain rfl := next.first.unique (h.leastIn old first')
  exact ⟨rfl, next.second.unique (h.leastIn (fun i hi => old i (List.mem_of_mem_erase hi)) second')⟩

/-- The two nodes joined have the same counts in both. -/
theorem Parallel.pairCount {a b : NodeIdx} (next : NextJoin s a b) : pairCount s'.blk a b = pairCount s.blk a b := by
  rw [Machine.pairCount, Machine.pairCount, h.node a next.first_old.1, h.node b next.second_old.1]

theorem Parallel.joined {a b : NodeIdx} (next : NextJoin s a b) (next' : NextJoin s' a b) :
    Parallel (joined a b s) (joined a b s') := by
  constructor
  case nnode => simp [Machine.joined, h.nnode]
  case nleaf => rw [joined_nleaf, joined_nleaf, h.nleaf]
  case leaf => simp [Machine.joined, allocNode, pqInsert, setPar, h.leaf]
  case pq => rw [joined_pq, joined_pq, h.nnode, h.pq]
  case node =>
    intro i below
    rw [joined_nnode next.nnode_ne_nil] at below
    obtain rfl | old := toNat_lt_succ_iff.1 below
    · rw [next.readNode_new, ← h.nnode, next'.readNode_new, mergeNode, mergeNode, h.pairCount next]
    · rw [readNode_joined_old next.nnode_ne_nil next.first_old.1 next.second_old.1 old,
        readNode_joined_old next'.nnode_ne_nil next'.first_old.1 next'.second_old.1 (by rwa [h.nnode]), h.node i old,
        h.nnode]

/-- Two merge loops in parallel both go through, or both overflow. -/
theorem Parallel.mergeLoop (forest : Forest s) (forest' : Forest s') (n : ℕ) :
    (mergeLoop n s').1 = (mergeLoop n s).1 ∧ Parallel (mergeLoop n s).2 (mergeLoop n s').2 := by
  induction n generalizing s s' with
  | zero => exact ⟨rfl, h⟩
  | succ n ih =>
    rw [Machine.mergeLoop, Machine.mergeLoop, h.pq]
    split
    case isFalse => exact ⟨rfl, h⟩
    case isTrue two =>
      obtain ⟨a, b, first, second, outcome⟩ := mergeStep_cases two
      obtain ⟨a', b', first', second', outcome'⟩ := mergeStep_cases (s := s') (by rw [h.pq]; exact two)
      have next : NextJoin s a b := ⟨forest, two, first, second⟩
      have next' : NextJoin s' a' b' := ⟨forest', by rw [h.pq]; exact two, first', second'⟩
      obtain ⟨rfl, rfl⟩ := h.nextJoin next next'
      rw [h.pairCount next] at outcome'
      obtain ⟨overflows, e⟩ | ⟨fits, e⟩ := outcome
      · obtain ⟨_, e'⟩ | ⟨fits', _⟩ := outcome'
        · rw [e, e']
          refine ⟨rfl, h.nnode, h.nleaf, h.leaf, ?_, h.node⟩
          rw [setPq_pq, setPq_pq, h.pq]
        · omega
      · obtain ⟨overflows', _⟩ | ⟨_, e'⟩ := outcome'
        · omega
        · rw [e, e']
          exact ih (h.joined next next') (next.forest_joined fits) (next'.forest_joined (h.pairCount next ▸ fits))

/-! ### The root phase and BUILD -/

theorem Parallel.wrapped {r : NodeIdx} (room : s.blk.nnode ≠ nilIdx) (old : r.toNat < s.blk.nnode.toNat) :
    SameTree (wrapped r s).blk (wrapped r s').blk := by
  have room' : s'.blk.nnode ≠ nilIdx := h.nnode ▸ room
  have old' : r.toNat < s'.blk.nnode.toNat := h.nnode ▸ old
  constructor
  case nnode => rw [wrapped_nnode, wrapped_nnode, h.nnode]
  case nleaf => rw [wrapped_nleaf, wrapped_nleaf, h.nleaf]
  case root => rw [wrapped_root, wrapped_root, h.nnode]
  case leaf =>
    refine leaf_eq_of_readLeaf fun a => ?_
    rw [wrapped_readLeaf, wrapped_readLeaf, readLeaf, readLeaf, h.leaf]
  case node =>
    intro i below
    rw [wrapped_nnode, toNat_add_one_of_ne_nil room] at below
    obtain rfl | oldI := toNat_lt_succ_iff.1 below
    · rw [readNode_wrapped_root room old, ← h.nnode, readNode_wrapped_root room' old', wrapNode, wrapNode, h.node r old]
    · by_cases isLast : i = r
      · rw [isLast, readNode_wrapped_leaf room old, readNode_wrapped_leaf room' old', h.node r old, h.nnode]
      · rw [readNode_wrapped_other room old oldI isLast, readNode_wrapped_other room' old' (h.nnode ▸ oldI) isLast,
          h.node i oldI]

/-- The last node waiting is the root, or gets the same synthetic one. -/
theorem Parallel.rootPhase (forest : Forest s) (one : s.tmp.pq.length = 1) :
    SameTree (rootPhase s).blk (rootPhase s').blk := by
  obtain ⟨r, last⟩ := List.length_eq_one_iff.1 one
  have last' : s'.tmp.pq = [r] := h.pq.trans last
  obtain ⟨old, room⟩ := forest.last_room last
  have sameKind : (readNode s'.blk r).kind = (readNode s.blk r).kind := by rw [h.node r old]
  cases kind : (readNode s.blk r).kind with
  | internal =>
    rw [rootPhase_internal last kind, rootPhase_internal last' (sameKind.trans kind)]
    exact ⟨h.nnode, h.nleaf, rfl, h.leaf, h.node⟩
  | leaf =>
    rw [rootPhase_leaf last kind, rootPhase_leaf last' (sameKind.trans kind)]
    exact h.wrapped (room kind) old

end

/-- Two BUILDs of equal tables in parallel: both complete with the same tree, or both overflow (R174). -/
theorem exec_build_parallel {s s' : State} (isLive : live s) (isLive' : live s') (unbuilt : s.blk.tvalid = false)
    (unbuilt' : s'.blk.tvalid = false) (freq : s'.blk.freq = s.blk.freq) :
    (∃ t t', SameButTree s t ∧ SameButTree s' t' ∧ SameTree t.blk t'.blk ∧
      exec .build s = .next (pushRsp stOk 0#64 (setTvalid t)) ∧
      exec .build s' = .next (pushRsp stOk 0#64 (setTvalid t'))) ∨
    (∃ t t', SameButTree s t ∧ SameButTree s' t' ∧
      exec .build s = raise .countOverflow t ∧ exec .build s' = raise .countOverflow t') := by
  obtain ⟨all, start⟩ := buildStart_spec s
  obtain ⟨all', start'⟩ := buildStart_spec s'
  have parallel := parallel_buildStart freq
  by_cases noLeaf : (buildStart s).blk.nleaf = 0#9
  · have noLeaf' : (buildStart s').blk.nleaf = 0#9 := parallel.nleaf.trans noLeaf
    refine .inl ⟨setRoot nilIdx (buildStart s), setRoot nilIdx (buildStart s'),
      start.same.trans (sameButTree_setRoot _ _), start'.same.trans (sameButTree_setRoot _ _),
      ⟨parallel.nnode, parallel.nleaf, rfl, parallel.leaf, parallel.node⟩,
      exec_build_noLeaf isLive unbuilt noLeaf, exec_build_noLeaf isLive' unbuilt' noLeaf'⟩
  · have leaf' : (buildStart s').blk.nleaf ≠ 0#9 := fun none => noLeaf (parallel.nleaf.symm.trans none)
    have forest := start.forest all
    have leafBound := forest.leafBound
    have length := start.length
    rw [← all] at length
    have some : (buildStart s).blk.nleaf.toNat ≠ 0 := fun none => noLeaf (BitVec.eq_of_toNat_eq none)
    obtain ⟨u, same, -, outcome⟩ := mergeLoop_spec 255 forest (List.ne_nil_of_length_pos (by omega)) (by omega)
    obtain ⟨sameCause, loops⟩ := parallel.mergeLoop forest (start'.forest all') 255
    have same' : SameButTree s' (mergeLoop 255 (buildStart s')).2 := start'.same.trans (sameButTree_mergeLoop 255 _)
    generalize loop' : mergeLoop 255 (buildStart s') = result at *
    obtain ⟨cause', u'⟩ := result
    obtain ⟨loop, forest', one⟩ | ⟨loop, -⟩ := outcome
    · rw [loop] at sameCause loops
      obtain rfl : cause' = none := sameCause
      exact .inl ⟨rootPhase u, rootPhase u', start.same.trans (same.trans (sameButTree_rootPhase u)),
        same'.trans (sameButTree_rootPhase u'), loops.rootPhase forest' one,
        exec_build_merged isLive unbuilt noLeaf loop, exec_build_merged isLive' unbuilt' leaf' loop'⟩
    · rw [loop] at sameCause
      obtain rfl : cause' = Option.some .countOverflow := sameCause
      exact .inr ⟨u, u', start.same.trans same, same', exec_build_fault isLive unbuilt noLeaf loop,
        exec_build_fault isLive' unbuilt' leaf' loop'⟩

/-- Settles O27: the two BUILDs go in parallel. -/
theorem treeIsAFunctionOfFreq : Obligations.TreeIsAFunctionOfFreq := by
  intro s s' t t' isLive isLive' unbuilt unbuilt' freq h h'
  obtain ⟨u, u', -, -, tree, e, e'⟩ | ⟨u, u', same, same', e, e'⟩ :=
    exec_build_parallel isLive isLive' unbuilt unbuilt' freq.symm
  · rw [e] at h
    rw [e'] at h'
    cases h
    cases h'
    exact ⟨rfl, fun _ => ⟨tree.nnode.symm, tree.nleaf.symm, tree.root.symm, tree.leaf.symm,
      fun i below => (tree.node i below).symm⟩⟩
  · obtain ⟨_, _, _, _, _, _, rfl⟩ := same
    obtain ⟨_, _, _, _, _, _, rfl⟩ := same'
    rw [e] at h
    rw [e'] at h'
    cases h
    cases h'
    exact ⟨unbuilt.trans unbuilt'.symm, fun built => absurd (unbuilt.symm.trans built) (by decide)⟩

end Sys2Proof.Machine
end

section
/-! What compress emits is a function of the input and WORD_BIG_ENDIAN (R224): two runs of its sequence go side by side, in
blocks that differ in what no command of the sequence reads. -/

namespace Sys2Proof.Machine

/-! ### Blocks that differ in what is not read -/

/-- Another arena, other transient registers and another port. -/
def State.twin (node : Vector Node 511) (x : Transient) (p : Port) (s : State) : State :=
  { s with blk.node := node, tmp := x, port := p }

theorem wrBit_twin (b : Bool) (node : Vector Node 511) (x : Transient) (p : Port) (s : State) :
    wrBit b (s.twin node x p) = (wrBit b s).twin node x p := by
  by_cases eighth : s.blk.wcnt = 7#3
  · rw [wrBit_emits b eighth, wrBit_emits b (s := s.twin node x p) eighth]
    rfl
  · rw [wrBit_pending b eighth, wrBit_pending b (s := s.twin node x p) eighth]
    rfl

/-- The writer does not read them. -/
theorem wrBits_twin (bits : List Bool) (node : Vector Node 511) (x : Transient) (p : Port) (s : State) :
    wrBits bits (s.twin node x p) = (wrBits bits s).twin node x p := by
  induction bits generalizing s with
  | nil => rfl
  | cons b bits ih => rw [wrBits_cons, wrBit_twin, ih, wrBits_cons]

/-- `s` and `s'` are live and differ in the arena, the transient registers and the port at most, and while TVALID = 1 both
arenas hold the same tree. -/
structure Twins (s s' : State) : Prop where
  isLive : live s
  shape : ∃ node x p, s' = s.twin node x p
  tree : s.blk.tvalid = true → TreeOk s.blk ∧ TreeOk s'.blk ∧ SameTree s.blk s'.blk

/-- Two arenas that stay hold the same tree as before. -/
theorem SameTree.of_sameArena {a a' b b' : Block} (same : SameTree a a') (arena : SameArena a b) (root : b.root = a.root)
    (arena' : SameArena a' b') (root' : b'.root = a'.root) : SameTree b b' where
  nnode := arena'.nnode.trans (same.nnode.trans arena.nnode.symm)
  nleaf := arena'.nleaf.trans (same.nleaf.trans arena.nleaf.symm)
  root := root'.trans (same.root.trans root.symm)
  leaf := arena'.leaf.trans (same.leaf.trans arena.leaf.symm)
  node i below := by rw [arena'.readNode, arena.readNode, same.node i (arena.nnode ▸ below)]

/-- No command but BUILD and RESET tells twins apart, or makes them others, that writes what else there is alike. -/
theorem Twins.after {s s' t t' : State} {i : Instr} (h : Twins s s') (notBuild : i ≠ .build) (notReset : i ≠ .reset)
    (e : exec i s = .next t) (e' : exec i s' = .next t') (isLive : live t) (shape : ∃ node x p, t' = t.twin node x p) :
    Twins t t' := by
  refine ⟨isLive, shape, fun stillBuilt => ?_⟩
  obtain ⟨-, -, -, registers, -⟩ := eachRegisterHasItsWriters i s t e
  have built : s.blk.tvalid = true := (registers notBuild notReset).1 ▸ stillBuilt
  have built' : s'.blk.tvalid = true := by
    obtain ⟨_, _, _, rfl⟩ := h.shape
    exact built
  obtain ⟨tree, tree', same⟩ := h.tree built
  obtain ⟨-, arena, root⟩ := (e ▸ exec_ends i s).frozen built notReset
  obtain ⟨-, arena', root'⟩ := (e' ▸ exec_ends i s').frozen built' notReset
  exact ⟨arena.treeOk root tree, arena'.treeOk root' tree', same.of_sameArena arena root arena' root'⟩

/-! ### The commands of the sequence -/

/-- `s` and `s'` answer the command `i` alike, and if not with a fault, are twins after it. -/
def AnswerAlike (i : Instr) (s s' : State) : Prop :=
  ∃ st rd t t', exec i s = .next (pushRsp st rd t) ∧ exec i s' = .next (pushRsp st rd t') ∧
    (st = stOk ∨ st = stEod → Twins (pushRsp st rd t) (pushRsp st rd t'))

theorem AnswerAlike.raised {i : Instr} {s s' t t' : State} {c : Cause} (e : exec i s = raise c t)
    (e' : exec i s' = raise c t') : AnswerAlike i s s' :=
  ⟨c.code, 0#64, enterFault c t, enterFault c t', e, e', fun fine => by
    cases c <;> exact absurd fine (by decide)⟩

section

variable {s s' : State} (h : Twins s s')
include h

/-- A command that answers alike what a state has in common with its twins. -/
theorem Twins.answers {i : Instr} {st : BitVec 8} {rd : BitVec 64} {t : State} (notBuild : i ≠ .build)
    (notReset : i ≠ .reset) (e : exec i s = .next (pushRsp st rd t)) (isLive : live t)
    (e' : ∃ node x p, exec i s' = .next (pushRsp st rd (t.twin node x p))) : AnswerAlike i s s' := by
  obtain ⟨node, x, p, e'⟩ := e'
  exact ⟨st, rd, t, t.twin node x p, e, e', fun _ =>
    h.after notBuild notReset e e' isLive ⟨node, x, p.answered st rd, rfl⟩⟩

theorem Twins.rdbyte : AnswerAlike .rdbyte s s' := by
  obtain ⟨node, x, p, rfl⟩ := h.shape
  obtain ⟨noByte, read⟩ | ⟨left, read⟩ := srcNext_cases s
  · exact h.answers (by simp) (by simp) (exec_rdbyte_none h.isLive read) h.isLive
      ⟨node, x, p, exec_rdbyte_none (s := s.twin node x p) h.isLive (srcNext_exhausted noByte)⟩
  · exact h.answers (by simp) (by simp) (exec_rdbyte_some h.isLive read) h.isLive
      ⟨node, x, p, exec_rdbyte_some (s := s.twin node x p) h.isLive (srcNext_byte (s := s.twin node x p) left)⟩

theorem Twins.count (a : Sym) : AnswerAlike (.count a) s s' := by
  obtain ⟨node, x, p, rfl⟩ := h.shape
  cases built : s.blk.tvalid with
  | true => exact .raised (exec_count_frozen h.isLive a built) (exec_count_frozen (s := s.twin node x p) h.isLive a built)
  | false =>
    by_cases full : readFreq s.blk a = BitVec.allOnes 64
    · exact .raised (exec_count_overflow h.isLive built full)
        (exec_count_overflow (s := s.twin node x p) h.isLive built full)
    · exact h.answers (by simp) (by simp) (exec_count_adds h.isLive built full) h.isLive
        ⟨node, x, p, exec_count_adds (s := s.twin node x p) h.isLive built full⟩

theorem Twins.getfreq (a : Sym) : AnswerAlike (.getfreq a) s s' := by
  obtain ⟨node, x, p, rfl⟩ := h.shape
  exact h.answers (by simp) (by simp) (exec_getfreq_live h.isLive a) h.isLive
    ⟨node, x, p, exec_getfreq_live (s := s.twin node x p) h.isLive a⟩

theorem Twins.getnleaf : AnswerAlike .getnleaf s s' := by
  obtain ⟨node, x, p, rfl⟩ := h.shape
  exact h.answers (by simp) (by simp) (exec_getnleaf_live h.isLive) h.isLive
    ⟨node, x, p, exec_getnleaf_live (s := s.twin node x p) h.isLive⟩

theorem Twins.wrbyte (d : BitVec 64) : AnswerAlike (.wrbyte d) s s' := by
  obtain ⟨node, x, p, rfl⟩ := h.shape
  exact h.answers (by simp) (by simp) (exec_wrbyte_live h.isLive d) h.isLive
    ⟨node, x, p, exec_wrbyte_live (s := s.twin node x p) h.isLive d⟩

theorem Twins.wrword (d : BitVec 64) : AnswerAlike (.wrword d) s s' := by
  obtain ⟨node, x, p, rfl⟩ := h.shape
  exact h.answers (by simp) (by simp) (exec_wrword_live h.isLive d) h.isLive
    ⟨node, x, p, exec_wrword_live (s := s.twin node x p) h.isLive d⟩

theorem Twins.flush : AnswerAlike .flush s s' := by
  obtain ⟨node, x, p, rfl⟩ := h.shape
  by_cases empty : s.blk.wcnt = 0#3
  · exact h.answers (by simp) (by simp) (exec_flush_empty h.isLive empty) h.isLive
      ⟨node, x, p, exec_flush_empty (s := s.twin node x p) h.isLive empty⟩
  · exact h.answers (by simp) (by simp) (exec_flush_pending h.isLive empty) h.isLive
      ⟨node, x, p, exec_flush_pending (s := s.twin node x p) h.isLive empty⟩

/-- The two trees give a symbol the same code. -/
theorem Twins.encode (a : Sym) : AnswerAlike (.encode a) s s' := by
  have isLive' : live s' := by
    obtain ⟨_, _, _, rfl⟩ := h.shape
    exact h.isLive
  by_cases noTree : s.blk.tvalid = false ∨ s.blk.root = nilIdx
  · refine .raised (exec_encode_noTree h.isLive a noTree) (exec_encode_noTree isLive' a ?_)
    obtain ⟨_, _, _, rfl⟩ := h.shape
    exact noTree
  obtain ⟨built, hasRoot⟩ := not_or.1 noTree
  rw [Bool.not_eq_false] at built
  obtain ⟨tree, tree', same⟩ := h.tree built
  have built' : s'.blk.tvalid = true := by
    obtain ⟨_, _, _, rfl⟩ := h.shape
    exact built
  by_cases noLeaf : readLeaf s.blk a = nilIdx
  · exact .raised (exec_encode_noLeaf h.isLive built hasRoot noLeaf)
      (exec_encode_noLeaf isLive' built' (same.root ▸ hasRoot) ((same.readLeaf a).trans noLeaf))
  obtain ⟨stk, e⟩ := exec_encode_live h.isLive built tree noLeaf
  obtain ⟨stk', e'⟩ := exec_encode_live isLive' built' tree' (same.readLeaf a ▸ noLeaf)
  rw [same.code_eq tree tree' noLeaf] at e'
  have stillLive : live ((wrBits (code s.blk a) s).withTmp { s.tmp with cstk := stk, clen := 0#8 }) := by
    obtain ⟨_, _, _, frame⟩ := wrBits_frame (code s.blk a) s
    rw [frame]
    exact h.isLive
  refine h.answers (by simp) (by simp) e stillLive ?_
  obtain ⟨node, x, p, rfl⟩ := h.shape
  rw [wrBits_twin] at e'
  exact ⟨node, _, p, e'⟩

/-- The two tables are equal, so the two BUILDs go in parallel. -/
theorem Twins.build : AnswerAlike .build s s' := by
  obtain ⟨isLive, ⟨node, x, p, rfl⟩, -⟩ := h
  cases built : s.blk.tvalid with
  | true => exact .raised (exec_build_frozen isLive built) (exec_build_frozen (s := s.twin node x p) isLive built)
  | false =>
    obtain ⟨t, t', same, same', tree, e, e'⟩ | ⟨t, t', -, -, e, e'⟩ :=
      exec_build_parallel (s' := s.twin node x p) isLive isLive built built rfl
    · refine ⟨stOk, 0#64, _, _, e, e', fun _ => ⟨?_, ?_, fun _ => ⟨?_, ?_, ?_⟩⟩⟩
      · exact same.fault_eq.trans isLive
      · obtain ⟨_, nnode, nleaf, root, leaf, _, rfl⟩ := same
        obtain ⟨node', nnode', nleaf', root', leaf', _, rfl⟩ := same'
        obtain rfl : nnode' = nnode := tree.nnode
        obtain rfl : nleaf' = nleaf := tree.nleaf
        obtain rfl : root' = root := tree.root
        obtain rfl : leaf' = leaf := tree.leaf
        exact ⟨node', _, _, rfl⟩
      · exact treeOk_of_exec_build isLive built e rfl
      · exact treeOk_of_exec_build (s := s.twin node x p) isLive built e' rfl
      · exact ⟨tree.nnode, tree.nleaf, tree.root, tree.leaf, tree.node⟩
    · exact .raised e e'

end

/-! ### The sequence -/

/-- Two runs of a host sequence that end with the same result, and if with success, with the same sink. -/
def RunAlike (run run' : HostRun) : Prop :=
  ∃ r t t', run = finish r t ∧ run' = finish r t' ∧ (r = .success → t'.env.snk = t.env.snk)

/-- In compress, a fault ends the sequence (R216). -/
theorem issueOk_of_fault {i : Instr} {s t : State} {st : BitVec 8} {rd : BitVec 64} (wellFormed : i.wellFormed = true)
    (e : exec i s = .next (pushRsp st rd t)) (fault : ¬ (st = stOk ∨ st = stEod)) (k : Response → State → HostRun) :
    issueOk i s k = finish (.failure st) (pushRsp st rd t) := by
  rw [issueOk, issue_of_exec wellFormed e, if_neg fault]

theorem AnswerAlike.issueOk {i : Instr} {s s' : State} (alike : AnswerAlike i s s') (wellFormed : i.wellFormed = true)
    {k k' : Response → State → HostRun} (goesOn : ∀ r t t', Twins t t' → RunAlike (k r t) (k' r t')) :
    RunAlike (issueOk i s k) (issueOk i s' k') := by
  obtain ⟨st, rd, t, t', e, e', twins⟩ := alike
  by_cases fine : st = stOk ∨ st = stEod
  · rw [issueOk_of_exec wellFormed e fine, issueOk_of_exec wellFormed e' fine]
    exact goesOn _ _ _ (twins fine)
  · rw [issueOk_of_fault wellFormed e fine, issueOk_of_fault wellFormed e' fine]
    exact ⟨_, _, _, rfl, rfl, fun success => by cases success⟩

theorem RunAlike.ite {c : Prop} [Decidable c] {f f' g g' : HostRun} (hf : RunAlike f f') (hg : RunAlike g g') :
    RunAlike (if c then f else g) (if c then f' else g') := by
  split
  · exact hf
  · exact hg

theorem Twins.finish {s s' : State} (h : Twins s s') : RunAlike (finish .success s) (finish .success s') := by
  obtain ⟨_, _, _, rfl⟩ := h.shape
  exact ⟨_, _, _, rfl, rfl, fun _ => rfl⟩

theorem Twins.rewindSource {s s' : State} (h : Twins s s') : Twins (rewindSource s) (rewindSource s') := by
  obtain ⟨isLive, ⟨node, x, p, rfl⟩, tree⟩ := h
  exact ⟨isLive, ⟨node, x, p, rfl⟩, tree⟩

section

variable {s s' : State} (h : Twins s s') {k k' : State → HostRun}
  (goesOn : ∀ t t', Twins t t' → RunAlike (k t) (k' t'))
include h goesOn

theorem Twins.scanLoop {op : Byte → Instr} (wellFormed : ∀ b, (op b).wellFormed = true)
    (alike : ∀ b t t', Twins t t' → AnswerAlike (op b) t t') (n : ℕ) :
    RunAlike (scanLoop op n s k) (scanLoop op n s' k') := by
  induction n generalizing s s' with
  | zero => exact goesOn s s' h
  | succ n ih =>
    rw [Machine.scanLoop, Machine.scanLoop]
    exact h.rdbyte.issueOk rfl fun r t t' next => .ite (goesOn t t' next) <|
      (alike _ t t' next).issueOk (wellFormed _) fun _ _ _ last => ih last

theorem Twins.writeScan {op : Sym → Count → Instr} (wellFormed : ∀ a n, (op a n).wellFormed = true)
    (alike : ∀ a n t t', Twins t t' → AnswerAlike (op a n) t t') (as : List Sym) :
    RunAlike (writeScan op as s k) (writeScan op as s' k') := by
  induction as generalizing s s' with
  | nil => exact goesOn s s' h
  | cons a as ih =>
    rw [Machine.writeScan, Machine.writeScan]
    exact (h.getfreq a).issueOk rfl fun r t t' next => .ite (ih next) <|
      (alike a r.rd t t' next).issueOk (wellFormed _ _) fun _ _ _ last => ih last

end

/-- The phases of R216, one after the other. -/
theorem Twins.compress {s s' : State} (h : Twins s s') : RunAlike (compress s) (compress s') := by
  have src : s'.env.src = s.env.src := by
    obtain ⟨_, _, _, rfl⟩ := h.shape
    rfl
  simp only [Machine.compress, src, countLoop_eq_scanLoop, encodeLoop_eq_scanLoop, writeSyms_eq_writeScan,
    writeCounts_eq_writeScan]
  refine h.scanLoop (fun _ _ h => ?_) (fun _ => rfl) (fun b _ _ h => h.count b) _
  refine h.build.issueOk rfl fun _ _ _ h => h.getnleaf.issueOk rfl fun r _ _ h => .ite h.finish ?_
  refine (h.wrbyte _).issueOk rfl fun _ _ _ h => ?_
  refine h.writeScan (fun _ _ h => ?_) (fun _ _ => rfl) (fun a _ _ _ h => h.wrbyte _) _
  refine h.writeScan (fun _ _ h => ?_) (fun _ _ => rfl) (fun _ n _ _ h => h.wrword n) _
  refine h.rewindSource.scanLoop (fun _ _ h => ?_) (fun _ => rfl) (fun b _ _ h => h.encode b) _
  exact h.flush.issueOk rfl fun _ _ _ h => h.finish

/-- The job's new sink, the given source and RESET make any two states with the same parameters twins. -/
theorem twins_reset (input : List Byte) {s s' : State} (cfg : s'.cfg = s.cfg) :
    Twins (pushRsp stOk 0#64 (resetBlock (replaceSink (replaceSource input s))))
      (pushRsp stOk 0#64 (resetBlock (replaceSink (replaceSource input s')))) where
  isLive := rfl
  tree built := by cases built
  shape := by
    refine ⟨s'.blk.node, (resetBlock s').tmp, s'.port.answered stOk 0#64, ?_⟩
    obtain ⟨_, _, _, _, _⟩ := s'
    obtain rfl := cfg
    rfl

theorem RunAlike.settle {run run' : HostRun} (alike : RunAlike run run') {r : HostResult} {t : State}
    (h : settle run = .next (r, t)) : ∃ t', settle run' = .next (r, t') ∧ t'.env.snk = t.env.snk := by
  obtain ⟨r', u, u', rfl, rfl, sink⟩ := alike
  cases r' with
  | success =>
    cases h
    exact ⟨u', rfl, sink rfl⟩
  | failure c =>
    rw [settle_finish_failure] at h
    cases h
    exact ⟨_, settle_finish_failure c u', rfl⟩

/-- Settles O54: after RESET the two systems are twins, whose runs are alike, and `settle` treats these alike. -/
theorem compressOutputIsAFunctionOfTheInput : Obligations.CompressOutputIsAFunctionOfTheInput := by
  intro input s s' t r cfg h
  have starts (u : State) : issue .reset (replaceSink (replaceSource input u)) (fun _ v => compress v) =
      compress (pushRsp stOk 0#64 (resetBlock (replaceSink (replaceSource input u)))) := issue_of_exec rfl rfl _
  rw [compressJob, starts] at h ⊢
  exact (twins_reset input cfg).compress.settle h

end Sys2Proof.Machine
end

section
/-! The decompress sequence (R217 to R219): what it reads of the header, and how it ends when the header is cut short. -/

namespace Sys2Proof.Machine

/-! ### The bytes of the source -/

/-- A live block over a source with these bytes left. -/
structure Reading (bytes : List Byte) (s : State) : Prop where
  isLive : live s
  left : s.env.src.drop s.env.spos = bytes

theorem Reading.length {bytes : List Byte} {s : State} (h : Reading bytes s) :
    s.env.src.length - s.env.spos = bytes.length := by
  rw [← h.left, List.length_drop]

/-- RDBYTE answers the first byte left. -/
theorem Reading.rdbyte_cons {b : Byte} {bytes : List Byte} {s : State} (h : Reading (b :: bytes) s) :
    ∃ p q, Reading bytes (s.beside s.tmp p q) ∧
      ∀ k : Response → State → HostRun, issue .rdbyte s k = k ⟨stOk, BitVec.ofNat 64 b.toNat⟩ (s.beside s.tmp p q) := by
  have length := h.length
  rw [List.length_cons] at length
  have inSource : s.env.spos < s.env.src.length := by omega
  have left := h.left
  rw [List.drop_eq_getElem_cons inSource, List.cons.injEq] at left
  obtain ⟨rfl, rest⟩ := left
  exact ⟨s.port.answered stOk _, s.env.spos + 1, ⟨h.isLive, rest⟩,
    fun k => issue_of_exec rfl (exec_rdbyte_some h.isLive (srcNext_byte inSource)) k⟩

/-- RDBYTE answers EOD when none is left. -/
theorem Reading.rdbyte_nil {s : State} (h : Reading [] s) (k : Response → State → HostRun) :
    issue .rdbyte s k = k ⟨stEod, 0#64⟩ (pushRsp stEod 0#64 s) := by
  have noByte : s.env.src.length ≤ s.env.spos := List.drop_eq_nil_iff.1 h.left
  exact issue_of_exec rfl (exec_rdbyte_none h.isLive (srcNext_exhausted noByte)) k

/-- RDWORD answers the word whose bytes come next. -/
theorem Reading.rdword {n : Count} {bytes : List Byte} {s : State}
    (h : Reading (wordToBytes s.cfg.wordBigEndian n ++ bytes) s) :
    ∃ p q, Reading bytes (s.beside s.tmp p q) ∧
      ∀ k : Response → State → HostRun, issue .rdword s k = k ⟨stOk, n⟩ (s.beside s.tmp p q) := by
  refine ⟨s.port.answered stOk n, s.env.spos + 8, ⟨h.isLive, ?_⟩,
    fun k => issue_of_exec rfl (exec_rdword_wordToBytes h.isLive h.left) k⟩
  change s.env.src.drop (s.env.spos + 8) = bytes
  rw [← List.drop_drop, h.left, List.drop_left' (length_wordToBytes _ _)]

/-- RDWORD answers some word when eight bytes are left or more. -/
theorem Reading.rdword_some {bytes : List Byte} {s : State} (h : Reading bytes s) (eight : 8 ≤ bytes.length) :
    ∃ n p q, Reading (bytes.drop 8) (s.beside s.tmp p q) ∧
      ∀ k : Response → State → HostRun, issue .rdword s k = k ⟨stOk, n⟩ (s.beside s.tmp p q) := by
  have length := h.length
  refine ⟨_, s.port.answered stOk _, s.env.spos + 8, ⟨h.isLive, ?_⟩,
    fun k => issue_of_exec rfl (exec_rdword_live h.isLive (by omega)) k⟩
  change s.env.src.drop (s.env.spos + 8) = bytes.drop 8
  rw [← List.drop_drop, h.left]

/-- RDWORD does not answer OK when fewer than eight bytes are left. -/
theorem Reading.rdword_short {bytes : List Byte} {s : State} (h : Reading bytes s) (short : bytes.length < 8) :
    ∃ st t, st ≠ stOk ∧ ∀ k : Response → State → HostRun, issue .rdword s k = k ⟨st, 0#64⟩ t := by
  have length := h.length
  obtain left | noByte := Nat.lt_or_ge s.env.spos s.env.src.length
  · exact ⟨Cause.endOfStream.code, _, by decide, fun k => issue_of_exec rfl
      ((exec_rdword_short h.isLive left (by omega)).trans (raise_eq _ _)) k⟩
  · exact ⟨stEod, _, by decide, fun k => issue_of_exec rfl (exec_rdword_exhausted h.isLive noByte) k⟩

/-! ### The symbols (R217 (a)) -/

theorem Reading.readSyms {syms : List Sym} {rest : List Byte} {s : State} (h : Reading (syms ++ rest) s) :
    ∃ p q, Reading rest (s.beside s.tmp p q) ∧
      ∀ k, readSyms syms.length s k = k syms (s.beside s.tmp p q) := by
  induction syms generalizing s with
  | nil => exact ⟨s.port, s.env.spos, ⟨h.isLive, h.left⟩, fun _ => rfl⟩
  | cons a syms ih =>
    obtain ⟨p, q, next, read⟩ := h.rdbyte_cons
    obtain ⟨p', q', done, goesOn⟩ := ih next
    refine ⟨p', q', ⟨done.isLive, done.left⟩, fun k => ?_⟩
    rw [List.length_cons, Machine.readSyms, read, if_neg (show stOk ≠ stEod by decide), rdByte_ofNat, goesOn]
    rfl

theorem Reading.readSyms_short {n : ℕ} {bytes : List Byte} {s : State} (h : Reading bytes s) (short : bytes.length < n) :
    ∃ c t, ∀ k, Machine.readSyms n s k = finish (.failure c) t := by
  induction n generalizing bytes s with
  | zero => exact absurd short (Nat.not_lt_zero _)
  | succ n ih =>
    cases bytes with
    | nil => exact ⟨_, _, fun k => by rw [Machine.readSyms, h.rdbyte_nil, if_pos rfl]⟩
    | cons b bytes =>
      obtain ⟨p, q, next, read⟩ := h.rdbyte_cons
      obtain ⟨c, t, fails⟩ := ih next (Nat.lt_of_succ_lt_succ short)
      exact ⟨c, t, fun k => by rw [Machine.readSyms, read, if_neg (show stOk ≠ stEod by decide), fails]⟩

/-! ### Their counts (R217 (a), R219) -/

/-- SETFREQ of each symbol in order. -/
def setCounts (f : Sym → Count) (as : List Sym) (s : State) : State := as.foldl (fun u a => setFreq a (f a) u) s

theorem setCounts_beside (f : Sym → Count) (as : List Sym) (x : Transient) (p : Port) (q : ℕ) (s : State) :
    setCounts f as (s.beside x p q) = (setCounts f as s).beside x p q :=
  List.foldl_hom (State.beside x p q) fun _ _ => rfl

theorem readFreq_setCounts (f : Sym → Count) (as : List Sym) (s : State) (a : Sym) :
    readFreq (setCounts f as s).blk a = if a ∈ as then f a else readFreq s.blk a := by
  induction as generalizing s with
  | nil => rfl
  | cons b as ih =>
    refine (ih (setFreq b (f b) s)).trans ?_
    rw [readFreq_setFreq]
    by_cases later : a ∈ as
    · simp [later]
    · by_cases isB : a = b
      · simp [isB]
      · simp [later, isB]

theorem setCounts_frame (f : Sym → Count) (as : List Sym) (s : State) :
    ∃ freq, setCounts f as s = { s with blk.freq := freq } := by
  induction as generalizing s with
  | nil => exact ⟨_, rfl⟩
  | cons a as ih =>
    obtain ⟨freq, e⟩ := ih (setFreq a (f a) s)
    exact ⟨freq, e⟩

/-- A count that RDWORD answers for a symbol, when it is positive and the first one for it: R219 lets it through. -/
theorem readCounts_cons {a : Sym} {n : Count} {bytes : List Byte} {p : Port} {q : ℕ} {s : State}
    (next : Reading bytes (s.beside s.tmp p q))
    (read : ∀ k : Response → State → HostRun, issue .rdword s k = k ⟨stOk, n⟩ (s.beside s.tmp p q))
    (unbuilt : s.blk.tvalid = false) (new : readFreq s.blk a = 0#64) (positive : n ≠ 0#64) :
    ∃ p', Reading bytes ((setFreq a n s).beside s.tmp p' q) ∧
      ∀ as k, readCounts (a :: as) s k = readCounts as ((setFreq a n s).beside s.tmp p' q) k := by
  have asked := exec_getfreq_live next.isLive a
  have set := exec_setfreq_writes (s := pushRsp stOk (readFreq s.blk a) (s.beside s.tmp p q)) next.isLive a n unbuilt
  refine ⟨(p.answered stOk (readFreq s.blk a)).answered stOk 0#64, ⟨next.isLive, next.left⟩, fun as k => ?_⟩
  have passes : ¬ (n = 0#64 ∨ readFreq s.blk a ≠ 0#64) := not_or.2 ⟨positive, not_not.2 new⟩
  rw [readCounts, read, if_neg (not_not.2 rfl)]
  exact (issue_of_exec rfl asked _).trans ((if_neg passes).trans (issue_of_exec rfl set _))

theorem Reading.readCounts {f : Sym → Count} {as : List Sym} {bytes : List Byte} {s : State}
    (h : Reading ((as.flatMap fun a => wordToBytes s.cfg.wordBigEndian (f a)) ++ bytes) s)
    (unbuilt : s.blk.tvalid = false) (nodup : as.Nodup) (new : ∀ a ∈ as, readFreq s.blk a = 0#64)
    (positive : ∀ a ∈ as, f a ≠ 0#64) :
    ∃ p q, Reading bytes ((setCounts f as s).beside s.tmp p q) ∧
      ∀ k, Machine.readCounts as s k = k ((setCounts f as s).beside s.tmp p q) := by
  induction as generalizing s with
  | nil => exact ⟨s.port, s.env.spos, ⟨h.isLive, h.left⟩, fun _ => rfl⟩
  | cons a as ih =>
    rw [List.flatMap_cons, List.append_assoc] at h
    obtain ⟨notLater, nodup⟩ := List.nodup_cons.1 nodup
    obtain ⟨p, q, answered, read⟩ := h.rdword
    obtain ⟨p, next, first⟩ :=
      readCounts_cons answered read unbuilt (new a List.mem_cons_self) (positive a List.mem_cons_self)
    have new' (x : Sym) (hx : x ∈ as) : readFreq (setFreq a (f a) s).blk x = 0#64 := by
      rw [readFreq_setFreq_other (by rintro rfl; exact notLater hx)]
      exact new x (List.mem_cons_of_mem _ hx)
    obtain ⟨p', q', done, goesOn⟩ := ih (s := (setFreq a (f a) s).beside s.tmp p q) next unbuilt nodup new'
      fun x hx => positive x (List.mem_cons_of_mem _ hx)
    rw [setCounts_beside] at done goesOn
    exact ⟨p', q', ⟨done.isLive, done.left⟩, fun k => (first as k).trans (goesOn k)⟩

/-! ### The payload (R217 (d)) -/

/-- A tree stands, and the reader is at the codes of these symbols. -/
structure AtCodes (syms : List Sym) (rest : List Bool) (s : State) : Prop where
  isLive : live s
  built : s.blk.tvalid = true
  tree : TreeOk s.blk
  legal : s.blk.rcnt.toNat ≤ 8
  leaf : ∀ a ∈ syms, readLeaf s.blk a ≠ nilIdx
  bits : bitsToRead s = syms.flatMap (code s.blk) ++ rest

/-- One DECODE, and the WRBYTE of its symbol. -/
theorem AtCodes.next {a : Sym} {syms : List Sym} {rest : List Bool} {s : State} (h : AtCodes (a :: syms) rest s) :
    ∃ t, AtCodes syms rest t ∧ t.env.snk = s.env.snk ++ [a] ∧
      decodeLoop (syms.length + 1) s = decodeLoop syms.length t := by
  have bits := h.bits
  rw [List.flatMap_cons, List.append_assoc] at bits
  obtain ⟨t, e, moved, legal, left⟩ :=
    AtCode.exec_decode ⟨h.isLive, h.built, h.tree, h.legal, h.leaf a List.mem_cons_self, bits⟩
  have arena := moved.sameArena
  obtain ⟨fault, tvalid, root, -⟩ := moved.control
  have sink : t.env.snk = s.env.snk := by
    obtain ⟨_, _, _, _, _, rfl⟩ := moved
    rfl
  have written := exec_wrbyte_live (s := pushRsp stOk (BitVec.ofNat 64 a.toNat) t) (fault.trans h.isLive)
    (BitVec.ofNat 64 a.toNat)
  rw [BitVec.ofNat_toNat, byteOperand_setWidth, ← BitVec.ofNat_toNat] at written
  refine ⟨pushRsp stOk 0#64 (snkPut a (pushRsp stOk (BitVec.ofNat 64 a.toNat) t)),
    ⟨fault.trans h.isLive, tvalid.trans h.built, arena.treeOk root h.tree, legal, fun x hx => ?_, ?_⟩,
    congrArg (· ++ [a]) sink, (issue_of_exec rfl e _).trans ((if_neg (show stOk ≠ stEod by decide)).trans
      ((if_neg (not_not.2 rfl)).trans (issue_of_exec rfl written _)))⟩
  · exact (arena.readLeaf x).trans_ne (h.leaf x (List.mem_cons_of_mem _ hx))
  · refine left.trans ?_
    rw [← show code t.blk = code s.blk from funext arena.code]
    rfl

theorem AtCodes.decodeLoop {syms : List Sym} {rest : List Bool} {s : State} (h : AtCodes syms rest s) :
    ∃ t, decodeLoop syms.length s = finish .success t ∧ t.env.snk = s.env.snk ++ syms := by
  induction syms generalizing s with
  | nil => exact ⟨s, rfl, (List.append_nil _).symm⟩
  | cons a syms ih =>
    obtain ⟨u, next, sink, first⟩ := h.next
    obtain ⟨t, done, sink'⟩ := ih next
    exact ⟨t, first.trans done, by rw [sink', sink, List.append_assoc]; rfl⟩

end Sys2Proof.Machine
end

section
/-! The two jobs together: decompress gives back what compress was given (R223), and a short stream gives nothing (R211). -/

namespace Sys2Proof.Machine

/-! ### The start of a job (R222) -/

/-- The state from which a job runs its sequence. -/
def jobStart (input : List Byte) (s : State) : State :=
  pushRsp stOk 0#64 (resetBlock (replaceSink (replaceSource input s)))

theorem compressJob_eq (input : List Byte) (s : State) : compressJob input s = settle (compress (jobStart input s)) :=
  congrArg settle (issue_of_exec rfl rfl _)

theorem decompressJob_eq (input : List Byte) (s : State) :
    decompressJob input s = settle (decompress (jobStart input s)) := congrArg settle (issue_of_exec rfl rfl _)

/-- A block just reset, whose reader is empty, over these bytes, with an empty sink. -/
structure ReadyToRead (bytes : List Byte) (s : State) : Prop where
  reading : Reading bytes s
  unbuilt : s.blk.tvalid = false
  freq : ∀ a : Sym, readFreq s.blk a = 0#64
  rcnt : s.blk.rcnt = 0#4
  snk : s.env.snk = []

theorem readyToRead_jobStart (input : List Byte) (s : State) : ReadyToRead input (jobStart input s) where
  reading := ⟨rfl, rfl⟩
  unbuilt := rfl
  freq := (readyFor_reset input s).freq
  rcnt := rfl
  snk := rfl

/-! ### Compress, with the BUILD its codes come from -/

/-- If a command lets the sequence succeed, the state it succeeds with is the one the command answers. -/
theorem exec_of_issueOk_success {i : Instr} {s t : State} (wellFormed : i.wellFormed = true)
    (h : issueOk i s (fun _ u => finish .success u) = finish .success t) : exec i s = .next t := by
  rw [issueOk, issue, acceptCommand_ok (decode_encode i wellFormed)] at h
  cases e : exec i s with
  | next u =>
    simp only [e] at h
    split at h
    · cases h
      rfl
    · cases h
  | fault f => simp [e, finish] at h
  | refused r => simp [e, finish] at h

/-- R216 (a), (b): the tree compress works with is what BUILD makes of a table of the input's counts. -/
theorem ReadyFor.build_exec {input : List Byte} {s : State} (h : ReadyFor input s) (some : input ≠ [])
    (short : input.length < 2 ^ 64) :
    ∃ c t, live c ∧ c.blk.tvalid = false ∧ Counted input c.blk ∧ exec .build c = .next t ∧ TreeFor input s.cfg t ∧
      ∀ k : State → HostRun,
        (countLoop (s.env.src.length + 1) s fun s1 => issueOk .build s1 fun _ s2 => k s2) = k t := by
  have fit : CountsFit input s := by
    refine ⟨h.isLive, h.unbuilt, fun a => ?_⟩
    rw [h.freq a]
    exact (Nat.zero_add _).trans_lt (List.count_le_length.trans_lt short)
  have bound : input.length < s.env.src.length + 1 := by rw [h.src]; omega
  obtain ⟨x, p, q, counts⟩ := countLoop_eq fit (by rw [h.spos, h.src, List.drop_zero]) bound
  have counted : Counted input (tally input s).blk := ⟨short, fun a => by rw [readFreq_tally, h.freq, BitVec.zero_add]⟩
  obtain ⟨t, tree, goesOn⟩ := h.build some short
  have built := goesOn (finish .success)
  rw [counts] at built
  refine ⟨(tally input s).beside x p q, t, ?_, ?_, ⟨counted.short, counted.freq⟩, exec_of_issueOk_success rfl built, tree, goesOn⟩
  · obtain ⟨_, e⟩ := tally_frame input s
    rw [e]
    exact h.isLive
  · obtain ⟨_, e⟩ := tally_frame input s
    rw [e]
    exact h.unbuilt

/-- What compress leaves of an input, with the BUILD that has made the tree of its codes (R210, R215). -/
structure Compressed (input bytes : List Byte) (big : Bool) : Prop where
  layout : ∃ c u payload pad, live c ∧ c.blk.tvalid = false ∧ Counted input c.blk ∧ exec .build c = .next u ∧
    u.blk.tvalid = true ∧ (∀ a ∈ input, readLeaf u.blk a ≠ nilIdx) ∧
    bytes = header big input ++ payload ∧
    streamBits payload = input.flatMap (code u.blk) ++ List.replicate pad false

theorem ReadyFor.compressed {input : List Byte} {s : State} (h : ReadyFor input s) (some : input ≠ [])
    (short : input.length < 2 ^ 64) :
    ∃ t, Machine.compress s = finish .success t ∧ Compressed input t.env.snk s.cfg.wordBigEndian := by
  obtain ⟨c, u, isLive, unbuilt, counted, e, tree, counts⟩ := h.build_exec some short
  obtain ⟨p, writesHeader⟩ := tree.writeHeader some
  obtain ⟨t, payload, pad, -, snk, -, bits, writesPayload⟩ :=
    tree.writePayload (header s.cfg.wordBigEndian input) p
  refine ⟨t, (counts _).trans ((writesHeader _).trans ?_),
    ⟨c, u, payload, pad, isLive, unbuilt, counted, e, tree.built, fun a => tree.readLeaf_ne_nil, snk, bits⟩⟩
  rw [h.src]
  exact writesPayload _

/-! ### Decompress of what compress leaves -/

theorem length_occurring_le (input : List Byte) : (occurring input).length ≤ 256 :=
  (List.length_filter_le _ _).trans (by simp [allSyms])

theorem nodup_occurring (input : List Byte) : (occurring input).Nodup := nodup_allSyms.filter _

theorem mem_occurring {input : List Byte} {a : Sym} : a ∈ occurring input ↔ a ∈ input := by
  simp [occurring, mem_allSyms]

/-- The count of a symbol of the input, as RDWORD answers it. -/
def countOf (input : List Byte) (a : Sym) : Count := BitVec.ofNat 64 (input.count a)

theorem countOf_ne_zero {input : List Byte} (short : input.length < 2 ^ 64) {a : Sym} (occurs : a ∈ input) :
    countOf input a ≠ 0#64 := by
  intro zero
  have := congrArg BitVec.toNat zero
  rw [countOf, BitVec.toNat_ofNat, Nat.mod_eq_of_lt (List.count_le_length.trans_lt short)] at this
  exact absurd this (List.count_pos_iff.2 occurs).ne'

/-- N in the first byte (R212). -/
theorem toNat_length_sub_one {n : ℕ} (some : n ≠ 0) (few : n ≤ 256) : (BitVec.ofNat 8 (n - 1)).toNat + 1 = n := by
  rw [BitVec.toNat_ofNat, Nat.mod_eq_of_lt (by omega)]
  omega

/-- R217 (a): the header read back makes the table of the input's counts. -/
theorem ReadyToRead.readHeader {input payload : List Byte} {s : State}
    (h : ReadyToRead (header s.cfg.wordBigEndian input ++ payload) s) (some : input ≠ [])
    (short : input.length < 2 ^ 64) :
    ∃ p q, Reading payload ((setCounts (countOf input) (occurring input) s).beside s.tmp p q) ∧
      ∀ k : State → HostRun, (issue .rdbyte s fun r s1 =>
        if r.st = stEod then finish .success s1
        else readSyms ((rdByte r).toNat + 1) s1 fun as s2 => readCounts as s2 k) =
      k ((setCounts (countOf input) (occurring input) s).beside s.tmp p q) := by
  have reading : Reading (BitVec.ofNat 8 ((occurring input).length - 1) :: (occurring input ++
      (((occurring input).flatMap fun a => wordToBytes s.cfg.wordBigEndian (countOf input a)) ++ payload))) s := by
    have reading := h.reading
    simp only [header, List.append_assoc] at reading
    exact reading
  have number := toNat_length_sub_one (List.length_eq_zero_iff.not.2 (occurring_ne_nil some)) (length_occurring_le input)
  obtain ⟨p, q, next, first⟩ := reading.rdbyte_cons
  obtain ⟨p', q', next', syms⟩ := next.readSyms
  obtain ⟨p'', q'', next'', counts⟩ := Reading.readCounts (s := (s.beside s.tmp p q).beside s.tmp p' q') next' h.unbuilt
    (nodup_occurring input) (fun a _ => h.freq a) (fun a occurs => countOf_ne_zero short (mem_occurring.1 occurs))
  rw [setCounts_beside, setCounts_beside] at next'' counts
  refine ⟨p'', q'', ⟨next''.isLive, next''.left⟩, fun k => ?_⟩
  rw [first, if_neg (show stOk ≠ stEod by decide), rdByte_ofNat, number, syms]
  exact counts k

/-- The bits a block with an empty reader over these bytes will deliver. -/
theorem Reading.bitsToRead {bytes : List Byte} {s : State} (h : Reading bytes s) (empty : s.blk.rcnt = 0#4) :
    bitsToRead s = streamBits bytes := by
  rw [bitsToRead_of_empty empty, h.left]

/-- R217 (b) to (d) from a table of the input's counts: BUILD makes the tree of the codes, and its root counts the bytes
to decode. -/
theorem Reading.decompressPayload {input payload : List Byte} {pad : ℕ} {c d u : State} (reading : Reading payload d)
    (unbuilt : d.blk.tvalid = false) (empty : d.blk.rcnt = 0#4) (isLiveC : live c) (unbuiltC : c.blk.tvalid = false)
    (countedC : Counted input c.blk) (counted : Counted input d.blk) (e : exec .build c = .next u)
    (built : u.blk.tvalid = true) (leaf : ∀ a ∈ input, readLeaf u.blk a ≠ nilIdx)
    (bits : streamBits payload = input.flatMap (code u.blk) ++ List.replicate pad false) :
    ∃ t, (issue .build d fun b s4 =>
        if b.st ≠ stOk then finish (.failure b.st) s4
        else issue .gettotal s4 fun total s5 => decodeLoop total.rd.toNat s5) = finish .success t ∧
      t.env.snk = d.env.snk ++ input := by
  have freq : d.blk.freq = c.blk.freq := freq_eq_of_readFreq fun a => (counted.freq a).trans (countedC.freq a).symm
  obtain ⟨v, v', same, same', tree, eC, eD⟩ | ⟨v, v', same, -, eC, -⟩ :=
    exec_build_parallel isLiveC reading.isLive unbuiltC unbuilt freq
  · have treeC := treeOk_of_exec_build isLiveC unbuiltC eC rfl
    have treeD := treeOk_of_exec_build reading.isLive unbuilt eD rfl
    obtain ⟨total, asked, sum⟩ := gettotalIsTheSumOfTheCounts d _ reading.isLive unbuilt eD rfl
    rw [counted.totalFreq_eq] at sum
    obtain rfl : pushRsp stOk 0#64 (setTvalid v) = u := Host.Outcome.next.inj (eC.symm.trans e)
    have tree' : SameTree (pushRsp stOk 0#64 (setTvalid v)).blk (pushRsp stOk 0#64 (setTvalid v')).blk :=
      ⟨tree.nnode, tree.nleaf, tree.root, tree.leaf, tree.node⟩
    have atCodes : AtCodes input (List.replicate pad false)
        (pushRsp 0x00#8 total (pushRsp stOk 0#64 (setTvalid v'))) := by
      refine ⟨same'.fault_eq.trans reading.isLive, rfl, treeD, ?_, fun a occurs => ?_, ?_⟩
      · obtain ⟨_, _, _, _, _, _, rfl⟩ := same'
        exact (congrArg BitVec.toNat empty).trans_le (Nat.zero_le 8)
      · exact (tree'.readLeaf a).trans_ne (leaf a occurs)
      · have moved : Machine.bitsToRead (pushRsp 0x00#8 total (pushRsp stOk 0#64 (setTvalid v'))) = Machine.bitsToRead d := by
          obtain ⟨_, _, _, _, _, _, rfl⟩ := same'
          rfl
        rw [moved, reading.bitsToRead empty, bits]
        exact congrArg (· ++ List.replicate pad false)
          (List.flatMap_congr fun a occurs => (tree'.code_eq treeC treeD (leaf a occurs)).symm)
    obtain ⟨t, done, sink⟩ := atCodes.decodeLoop
    refine ⟨t, (issue_of_exec rfl eD _).trans ((if_neg (not_not.2 rfl)).trans
      ((issue_of_exec rfl asked _).trans ?_)), sink.trans ?_⟩
    · rw [sum]
      exact done
    · obtain ⟨_, _, _, _, _, _, rfl⟩ := same'
      rfl
  · obtain ⟨_, _, _, _, _, _, rfl⟩ := same
    rw [eC] at e
    cases e
    exact absurd (unbuiltC.symm.trans built) (by decide)

/-- The whole sequence over what compress leaves of an input. -/
theorem Compressed.decompress {input bytes : List Byte} {s : State}
    (compressed : Compressed input bytes s.cfg.wordBigEndian) (some : input ≠ []) (h : ReadyToRead bytes s) :
    ∃ t, Machine.decompress s = finish .success t ∧ t.env.snk = input := by
  obtain ⟨c, u, payload, pad, isLive, unbuilt, countedC, e, built, leaf, rfl, bits⟩ := compressed
  obtain ⟨p, q, reading, header⟩ := h.readHeader some countedC.short
  have counted : Counted input (setCounts (countOf input) (occurring input) s).blk := by
    refine ⟨countedC.short, fun a => ?_⟩
    rw [readFreq_setCounts]
    split
    next => rfl
    next absent => rw [h.freq, List.count_eq_zero.2 (mt mem_occurring.2 absent)]
  obtain ⟨table, frame⟩ := setCounts_frame (countOf input) (occurring input) s
  rw [frame] at counted reading header
  obtain ⟨t, done, sink⟩ := reading.decompressPayload h.unbuilt h.rcnt isLive unbuilt countedC ⟨counted.short, counted.freq⟩
    e built leaf bits
  exact ⟨t, (header _).trans done, sink.trans (congrArg (· ++ input) h.snk)⟩

/-! ### The empty input and the empty stream (R211) -/

/-- BUILD of the empty table completes, with no leaf (R166). -/
theorem exec_build_empty {s : State} (isLive : live s) (unbuilt : s.blk.tvalid = false)
    (empty : ∀ a : Sym, readFreq s.blk a = 0#64) :
    ∃ u, SameButTree s u ∧ u.blk.nleaf = 0#9 ∧ exec .build s = .next (pushRsp stOk 0#64 (setTvalid u)) := by
  obtain ⟨t, e, -, built, nleaf, -⟩ := emptyTableBuildsNoTree s isLive unbuilt empty
  obtain ⟨u, same, -, e'⟩ | ⟨u, same, -, e'⟩ := exec_build_outcome isLive unbuilt
  · obtain rfl := Host.Outcome.next.inj (e'.symm.trans e)
    exact ⟨u, same, nleaf, e'⟩
  · obtain ⟨_, _, _, _, _, _, rfl⟩ := same
    obtain rfl := Host.Outcome.next.inj (e'.symm.trans e)
    exact absurd (unbuilt.symm.trans built) (by decide)

theorem ReadyFor.compress_empty {s : State} (h : ReadyFor [] s) :
    ∃ t, Machine.compress s = finish .success t ∧ t.env.snk = [] := by
  obtain ⟨x, p, q, counts⟩ := countLoop_eq (bs := []) (s := s)
    ⟨h.isLive, h.unbuilt, fun a => by simp [h.freq a]⟩ (by rw [h.spos, h.src, List.drop_zero]) (Nat.succ_pos _)
  obtain ⟨u, same, nleaf, e⟩ := exec_build_empty (s := s.beside x p q) h.isLive h.unbuilt h.freq
  have stillLive : live (pushRsp stOk 0#64 (setTvalid u)) := same.fault_eq.trans h.isLive
  refine ⟨_, (counts _).trans ((issueOk_of_exec rfl e (.inl rfl) _).trans
    ((issueOk_of_exec rfl (exec_getnleaf_live stillLive) (.inl rfl) _).trans (if_pos ?_))), ?_⟩
  · exact congrArg rdOfNleaf nleaf
  · obtain ⟨_, _, _, _, _, _, rfl⟩ := same
    exact h.snk

theorem ReadyToRead.decompress_empty {s : State} (h : ReadyToRead [] s) :
    Machine.decompress s = finish .success (pushRsp stEod 0#64 s) :=
  (h.reading.rdbyte_nil _).trans (if_pos rfl)

/-- Settles O53: the codes decompress reads are those compress wrote, because both trees are built of the same counts. -/
theorem decompressInvertsCompress : Obligations.DecompressInvertsCompress := by
  intro input s s' short cfg
  have start := readyFor_reset input s
  by_cases none : input = []
  · subst none
    obtain ⟨t, succeeds, sink⟩ := start.compress_empty
    refine ⟨t, pushRsp stEod 0#64 (jobStart [] s'), (compressJob_eq [] s).trans (congrArg settle succeeds), ?_, rfl, fun _ => sink⟩
    rw [decompressJob_eq, sink]
    exact congrArg settle (readyToRead_jobStart [] s').decompress_empty
  · obtain ⟨t, succeeds, compressed⟩ := start.compressed none short
    have compressed' : Compressed input t.env.snk (jobStart t.env.snk s').cfg.wordBigEndian := by
      rw [show (jobStart t.env.snk s').cfg = s.cfg from cfg]
      exact compressed
    obtain ⟨t', recovers, sink⟩ := compressed'.decompress none (readyToRead_jobStart _ s')
    refine ⟨t, t', (compressJob_eq input s).trans (congrArg settle succeeds), ?_, sink, fun empty => absurd empty none⟩
    exact (decompressJob_eq _ s').trans (congrArg settle recovers)

/-! ### A stream of fewer than eleven bytes (R211, R219) -/

/-- A run that ends with a failure. -/
def Fails (run : HostRun) : Prop := ∃ c t, run = finish (.failure c) t

theorem Fails.settle {run : HostRun} (fails : Fails run) {t : State} : Machine.settle run ≠ .next (.success, t) := by
  obtain ⟨c, u, rfl⟩ := fails
  rw [settle_finish_failure]
  intro h
  cases h

/-- A DECODE at the end of the data makes the sequence fail (R217 (d)). -/
theorem Reading.decodeLoop_fails {s : State} (h : Reading [] s) (empty : s.blk.rcnt = 0#4) (n : ℕ) :
    Fails (decodeLoop (n + 1) s) := by
  by_cases noTree : s.blk.tvalid = false ∨ s.blk.root = nilIdx
  · exact ⟨_, _, (issue_of_exec rfl ((exec_decode_noTree h.isLive noTree).trans (raise_eq _ _)) _).trans
      ((if_neg (by decide)).trans (if_pos (by decide)))⟩
  · obtain ⟨built, hasRoot⟩ := not_or.1 noTree
    rw [Bool.not_eq_false] at built
    obtain ⟨x, e⟩ := exec_atEnd (i := .decode) h.isLive
      ⟨List.drop_eq_nil_iff.1 h.left, .inr (.inr (.inr ⟨rfl, built, hasRoot, empty⟩))⟩
    exact ⟨_, _, (issue_of_exec rfl e _).trans (if_pos rfl)⟩

theorem readFreq_le_totalFreq (b : Block) (a : Sym) : (readFreq b a).toNat ≤ totalFreq b := by
  refine List.le_sum_of_mem (List.mem_map_of_mem ?_)
  rw [Vector.mem_toList_iff, readFreq]
  exact Vector.getElem_mem _

/-- With a positive count and no byte after the header, BUILD fails or DECODE meets the end of the data. -/
theorem Reading.build_fails {d : State} (h : Reading [] d) (unbuilt : d.blk.tvalid = false) (empty : d.blk.rcnt = 0#4)
    {a : Sym} (positive : readFreq d.blk a ≠ 0#64) :
    Fails (issue .build d fun b s4 =>
      if b.st ≠ stOk then finish (.failure b.st) s4
      else issue .gettotal s4 fun total s5 => decodeLoop total.rd.toNat s5) := by
  obtain ⟨u, same, -, e⟩ | ⟨u, -, -, e⟩ := exec_build_outcome h.isLive unbuilt
  · obtain ⟨total, asked, sum⟩ := gettotalIsTheSumOfTheCounts d _ h.isLive unbuilt e rfl
    have some : total.toNat ≠ 0 := by
      have := readFreq_le_totalFreq d.blk a
      have : (readFreq d.blk a).toNat ≠ 0 := fun zero => positive (BitVec.eq_of_toNat_eq zero)
      omega
    obtain ⟨n, count⟩ := Nat.exists_eq_succ_of_ne_zero some
    have atEnd : Reading [] (pushRsp 0x00#8 total (pushRsp stOk 0#64 (setTvalid u))) ∧ u.blk.rcnt = 0#4 := by
      obtain ⟨_, _, _, _, _, _, rfl⟩ := same
      exact ⟨⟨h.isLive, h.left⟩, empty⟩
    obtain ⟨c, t, fails⟩ := atEnd.1.decodeLoop_fails atEnd.2 n
    refine ⟨c, t, (issue_of_exec rfl e _).trans ((if_neg (not_not.2 rfl)).trans
      ((issue_of_exec rfl asked _).trans ?_))⟩
    rw [count]
    exact fails
  · exact ⟨_, _, (issue_of_exec rfl (e.trans (raise_eq _ _)) _).trans (if_pos (by decide))⟩

/-- The header of a stream of one to ten bytes is cut short, or its one count is zero, or no payload follows it. -/
theorem ReadyToRead.decompress_fails {b : Byte} {bytes : List Byte} {s : State} (h : ReadyToRead (b :: bytes) s)
    (short : bytes.length < 10) : Fails (Machine.decompress s) := by
  obtain ⟨p, q, next, first⟩ := h.reading.rdbyte_cons
  rw [Machine.decompress, first, if_neg (show stOk ≠ stEod by decide), rdByte_ofNat]
  by_cases cut : bytes.length < b.toNat + 1
  · obtain ⟨c, t, fails⟩ := next.readSyms_short cut
    exact ⟨c, t, fails _⟩
  obtain ⟨syms, rest, rfl, number⟩ : ∃ syms rest, bytes = syms ++ rest ∧ syms.length = b.toNat + 1 :=
    ⟨bytes.take (b.toNat + 1), bytes.drop (b.toNat + 1), (List.take_append_drop _ _).symm, by
      rw [List.length_take]; omega⟩
  obtain ⟨p', q', next', read⟩ := next.readSyms
  rw [← number, read]
  obtain ⟨a, as, rfl⟩ := List.exists_cons_of_ne_nil (l := syms) (by rintro rfl; simp at number)
  rw [List.length_append, List.length_cons] at short
  by_cases few : rest.length < 8
  · obtain ⟨st, t, notOk, word⟩ := next'.rdword_short few
    exact ⟨_, _, by rw [readCounts, word, if_pos notOk]⟩
  obtain rfl : as = [] := List.length_eq_zero_iff.1 (by omega)
  obtain ⟨n, p'', q'', last, word⟩ := next'.rdword_some (not_lt.1 few)
  rw [List.drop_of_length_le (by omega)] at last
  by_cases zero : n = 0#64
  · have asked := exec_getfreq_live last.isLive a
    exact ⟨_, _, by
      rw [readCounts, word, if_neg (not_not.2 rfl)]
      exact (issue_of_exec rfl asked _).trans (if_pos (.inl zero))⟩
  · obtain ⟨p, counted, goesOn⟩ := readCounts_cons last word h.unbuilt (h.freq a) zero
    rw [goesOn]
    exact counted.build_fails h.unbuilt h.rcnt (a := a) fun none => zero ((readFreq_setFreq_same a n _).symm.trans none)

/-- Settles O56: the empty input has no leaf, the empty stream has no header, and any other short stream fails. -/
theorem emptyStreamIsTheOnlyShortStream : Obligations.EmptyStreamIsTheOnlyShortStream := by
  refine fun s => ⟨?_, ?_, fun input t short succeeds => ?_⟩
  · obtain ⟨t, done, sink⟩ := (readyFor_reset [] s).compress_empty
    exact ⟨t, (compressJob_eq [] s).trans (congrArg settle done), sink⟩
  · exact ⟨pushRsp stEod 0#64 (jobStart [] s),
      (decompressJob_eq [] s).trans (congrArg settle (readyToRead_jobStart [] s).decompress_empty), rfl⟩
  · cases input with
    | nil => rfl
    | cons b bytes =>
      rw [decompressJob_eq] at succeeds
      exact absurd succeeds ((readyToRead_jobStart _ s).decompress_fails (Nat.lt_of_succ_lt_succ short)).settle

end Sys2Proof.Machine
end
